-- ==== Sys2Proof/Config.lean ====
section
/-! DEFINITION. The OPEN parameters of spec/00_scope.md R4: they belong to the configuration, not to the state (R38).

Each parameter is stored as its distance from its least legal value, so that the values of `Params` are exactly the
triples that R4 allows: `N ≥ 1` and `1 ≤ W_INT < W_RST` (notes/assumptions/1.md). -/

namespace Sys2Proof.Config

/-- A legal choice of `PRESCALE`, `W_INT` and `W_RST`. -/
structure Params where
  /-- `PRESCALE - 1` -/
  prescaleLess1 : Nat
  /-- `W_INT - 1` -/
  wIntLess1 : Nat
  /-- `W_RST - W_INT - 1` -/
  wGapLess1 : Nat
deriving DecidableEq, Repr, Inhabited

/-- `PRESCALE`, written `N` in the rules: system clocks per timer tick (R4, R90). -/
def Params.prescale (p : Params) : Nat := p.prescaleLess1 + 1

/-- `W_INT`: the watchdog count that raises the wake interrupt (R4, R140). -/
def Params.wInt (p : Params) : Nat := p.wIntLess1 + 1

/-- `W_RST`: the watchdog count that resets the block (R4, R140). -/
def Params.wRst (p : Params) : Nat := p.wInt + p.wGapLess1 + 1

/-- The parameters of the device. The spec leaves them OPEN (R4; D4 and D11 of spec/92_eei_decisions.md), so the constant
has no body: a claim about the machine holds for every legal value (notes/assumptions/1.md). -/
opaque params : Params

end Sys2Proof.Config
end

