-- ==== Sys2Proof/Word.lean ====
section
/-! DEFINITION. The word types of the block (spec/00_scope.md R4, spec/30_encoding.md R57).

Bits are numbered from 0, the least significant; every value is unsigned (spec/00_scope.md section 6). -/

namespace Sys2Proof

/-- `TIMER_WIDTH` and `PT_WIDTH` of R4, the width of a Tick Table entry (R40), and a byte of a stored trace (R57). -/
abbrev Byte := BitVec 8

/-- `STIM_WIDTH` of R4: a stimulus word (R57). -/
abbrev StimWord := BitVec 16

/-- `ADC_WIDTH` of R4: a calibration sample. -/
abbrev Sample := BitVec 10

/-- `IDX_WIDTH` of R4: a calibration index, the address of a Tick Table entry (R35, R40). -/
abbrev TickIdx := BitVec 3

end Sys2Proof
end

