-- ==== Sys2Proof/Syntax.lean ====
section
/-! DEFINITION. The operations of the block (spec/00_scope.md R5, spec/30_encoding.md R59): one constructor per row of
spec/opcode_table.json. An operation plays the role of an instruction, a trace of operations that of a program. -/

namespace Sys2Proof

/-- The seven operations, with the operands of R58 and R60. A count is a number of repetitions, hence a `Nat`
(`WellFormed.lean` bounds it by what a word can hold); a sample is a 10-bit register content. -/
inductive Instr where
  /-- `CLK n` (R90): `n` periods of the system clock. -/
  | clk (count : Nat)
  /-- `EDGE` (R80): a falling edge on the transmit line. -/
  | edge
  /-- `RISE` (R84): a rising edge on the transmit line. -/
  | rise
  /-- `ADCC s` (R112): the conversion in progress completes with reading `s`. -/
  | adcc (sample : Sample)
  /-- `WDCK n` (R141): `n` periods of the watchdog clock. -/
  | wdck (count : Nat)
  /-- `SVC` (R137): one service pass of the supervisor. -/
  | svc
  /-- `RST` (R186): external reset or power-on. -/
  | rst
deriving DecidableEq, Repr

/-- The three formats of R58. -/
inductive Format where
  /-- no operand -/
  | z
  /-- a count -/
  | c
  /-- a sample -/
  | s
deriving DecidableEq, Repr

/-- The format of each operation (R58). -/
def Instr.format : Instr → Format
  | .clk _ => .c
  | .edge => .z
  | .rise => .z
  | .adcc _ => .s
  | .wdck _ => .c
  | .svc => .z
  | .rst => .z

/-- The agents of R5 that issue operations. -/
inductive Agent where
  | transmitLine
  | systemClock
  | converter
  | watchdogClock
  | supervisor
  | resetSource
deriving DecidableEq, Repr

/-- Which agent issues an operation (the table of R5). -/
def Instr.agent : Instr → Agent
  | .clk _ => .systemClock
  | .edge => .transmitLine
  | .rise => .transmitLine
  | .adcc _ => .converter
  | .wdck _ => .watchdogClock
  | .svc => .supervisor
  | .rst => .resetSource

end Sys2Proof
end

