-- ==== Sys2Proof/WellFormed.lean ====
section
/-! DEFINITION. Which operations a stimulus word can spell (spec/30_encoding.md R58, R60). -/

namespace Sys2Proof

/-- The largest count of format C: "`count`, unsigned `0..1023`" (R58). -/
def maxCount : Nat := 1023

/-- One word spells the operation: "a count larger than 1023 is written as several words" (R60). A sample is in range by
its type. -/
def Instr.wellFormed : Instr → Bool
  | .clk n => n ≤ maxCount
  | .edge => true
  | .rise => true
  | .adcc _ => true
  | .wdck n => n ≤ maxCount
  | .svc => true
  | .rst => true

end Sys2Proof
end

