-- ==== Sys2Proof/Decode.lean ====
section
/-! DEFINITION. The stimulus word (spec/30_encoding.md R57 to R60, R65, R66): decoding, total on any bytes and refusing by
name, and encoding. The words are the spec's own (its decision D2); a stored trace holds each word as two bytes, the most
significant first (R57). -/

namespace Sys2Proof

/-- Why a trace spells no operation at its head. -/
inductive DecodeError where
  /-- `z ≠ 0` (R66). -/
  | reservedBits
  /-- `op` is `0x0` or `0x8..0xF` (R66). -/
  | unassignedOp
  /-- format Z with `arg ≠ 0` (R66). -/
  | operandNotZero
  /-- one byte is left, half a word (notes/assumptions/14.md). -/
  | truncatedWord
  /-- nothing is left: the trace is finite (R57) and has been applied whole. -/
  | endOfTrace
deriving DecidableEq, Repr

/-- `op`, bits 15:12 (R57). -/
def opField (w : StimWord) : BitVec 4 := w.extractLsb' 12 4

/-- `z`, bits 11:10 (R57). -/
def zField (w : StimWord) : BitVec 2 := w.extractLsb' 10 2

/-- `arg`, bits 9:0 (R57). -/
def argField (w : StimWord) : BitVec 10 := w.extractLsb' 0 10

/-- Format Z: the operand "must be zero" (R58). -/
def zeroOperand (arg : BitVec 10) (i : Instr) : Except DecodeError Instr :=
  if arg = 0 then .ok i else .error .operandNotZero

/-- The decoding of a word, in the order of R65's algorithm. An operand is taken as it stands (R60). -/
def decodeWord (w : StimWord) : Except DecodeError Instr :=
  if zField w = 0 then
    match (opField w).toNat with
    | 1 => .ok (.clk (argField w).toNat)
    | 2 => zeroOperand (argField w) .edge
    | 3 => zeroOperand (argField w) .rise
    | 4 => .ok (.adcc (argField w))
    | 5 => .ok (.wdck (argField w).toNat)
    | 6 => zeroOperand (argField w) .svc
    | 7 => zeroOperand (argField w) .rst
    | _ => .error .unassignedOp
  else .error .reservedBits

/-- A word from its two bytes, most significant first (R57). -/
def bytesWord (hi lo : Byte) : StimWord := hi.setWidth 16 <<< 8 ||| lo.setWidth 16

/-- The two bytes of a word, most significant first (R57). -/
def wordBytes (w : StimWord) : List Byte := [w.extractLsb' 8 8, w.extractLsb' 0 8]

/-- The operation at the head of a stored trace, and the bytes after it. -/
def decode : List Byte → Except DecodeError (Instr × List Byte)
  | [] => .error .endOfTrace
  | [_] => .error .truncatedWord
  | hi :: lo :: rest =>
    match decodeWord (bytesWord hi lo) with
    | .ok i => .ok (i, rest)
    | .error e => .error e

/-- A word of the given operation code and operand, `z = 0` (R57). -/
def stimWord (op : BitVec 4) (arg : BitVec 10) : StimWord :=
  op.setWidth 16 <<< 12 ||| arg.setWidth 16

/-- The word that spells an operation (R59); a count is cut to its ten bits, all of it when `i` is well formed. -/
def encodeWord : Instr → StimWord
  | .clk n => stimWord 0x1#4 (BitVec.ofNat 10 n)
  | .edge => stimWord 0x2#4 0
  | .rise => stimWord 0x3#4 0
  | .adcc s => stimWord 0x4#4 s
  | .wdck n => stimWord 0x5#4 (BitVec.ofNat 10 n)
  | .svc => stimWord 0x6#4 0
  | .rst => stimWord 0x7#4 0

/-- An operation as it is stored in a trace. -/
def encode (i : Instr) : List Byte := wordBytes (encodeWord i)

/-- A trace as it is stored: its words in order (R57). -/
def encodeTrace (is : List Instr) : List Byte := is.flatMap encode

/-- One row of the operation map of R59. -/
structure OpRow where
  /-- `match` -/
  pattern : StimWord
  mask : StimWord
  /-- the operation, from `arg` -/
  build : BitVec 10 → Instr

/-- The row of an operation in the operation map of R59: its `match` and `mask` columns. -/
def Instr.row : Instr → OpRow
  | .clk _ => ⟨0x1000#16, 0xFC00#16, fun a => .clk a.toNat⟩
  | .edge => ⟨0x2000#16, 0xFFFF#16, fun _ => .edge⟩
  | .rise => ⟨0x3000#16, 0xFFFF#16, fun _ => .rise⟩
  | .adcc _ => ⟨0x4000#16, 0xFC00#16, fun a => .adcc a⟩
  | .wdck _ => ⟨0x5000#16, 0xFC00#16, fun a => .wdck a.toNat⟩
  | .svc => ⟨0x6000#16, 0xFFFF#16, fun _ => .svc⟩
  | .rst => ⟨0x7000#16, 0xFFFF#16, fun _ => .rst⟩

/-- The operation map of R59: its seven rows. -/
def opTable : List OpRow :=
  [Instr.row (.clk 0), Instr.row .edge, Instr.row .rise, Instr.row (.adcc 0), Instr.row (.wdck 0), Instr.row .svc,
    Instr.row .rst]

/-- The bytes of an instruction whose bits are `w`, numbered as spec/opcode_table.json numbers them: one 16-bit word. -/
def tableBytes (nbits w : Nat) : List Byte := wordBytes (BitVec.ofNat 16 (w % 2 ^ nbits))

/-- What the decoder reads from an instruction whose bits are `w`. -/
def decodeTableWord (nbits w : Nat) : Option Instr :=
  match decode (tableBytes nbits w) with
  | .ok (i, _) => some i
  | .error _ => none

end Sys2Proof
end

