-- ==== Sys2Proof/Machine/State.lean ====
section
/-! DEFINITION. The state of the block (spec/10_state.md R10 to R24, R37), what can stop a step, and reset.

The first twelve fields are the twelve elements `S0` to `S11` of R10, in its order and with nothing added: "Nothing else is
state." The last field is the MODEL's own: the part of the stimulus trace that has not been applied yet
(notes/assumptions/2.md). The Tick Table and the parameters are not state (R38). A one-bit element is a `Bool`, `true`
for 1. -/

namespace Sys2Proof.Machine

structure State where
  /-- `PT` (S0, R12): the reload value. -/
  pt : Byte
  /-- `TCNT` (S1, R13): the timer counter, counting up. -/
  tcnt : Byte
  /-- `ADSAMPLE` (S2, R14): the last completed reading. -/
  adsample : Sample
  /-- `DE` (S3, R16): driver-enable, active high. -/
  de : Bool
  /-- `LEDn` (S4, R17): the status LED, active low. -/
  ledn : Bool
  /-- `TOIE` (S5, R18): timer-overflow interrupt enable. -/
  toie : Bool
  /-- `TOV` (S6, R19): timer-overflow pending flag. -/
  tov : Bool
  /-- `PSC` (S7, R20): the prescaler's phase, `0 .. N-1`. -/
  psc : Nat
  /-- `ADIF` (S8, R21): conversion-complete flag. -/
  adif : Bool
  /-- `ADBUSY` (S9, R22): a conversion is in progress. -/
  adbusy : Bool
  /-- `WDC` (S10, R23): the watchdog counter, `0 .. W_RST-1`. -/
  wdc : Nat
  /-- `AWAKE` (S11, R24): the supervisor is awake and owes a service pass. -/
  awake : Bool
  /-- The model's own field: the bytes of the stimulus trace not yet applied (R5, R57). -/
  trace : List Byte
deriving DecidableEq, Repr

/-- Faults: none. "The block raises no synchronous exception" (spec/60_exceptions.md R155), no access can fault
(spec/20_memory.md R44, R48) and "Nothing in the block is *fault* or *stuck*" (spec/93_implementation_defined.md). -/
inductive Fault where
deriving DecidableEq, Repr

/-- Refusals: the `refuse(reason)` of spec/00_scope.md, "a verdict on the stimulus, not a behaviour of the block". Each is
safe: the model goes no further where the spec gives no step. -/
inductive Refusal where
  /-- Raised by an arm of `exec` whose instruction has no meaning yet; no arm does. Safe. -/
  | notModelled (mnemonic : String)
  /-- Raised by `step` when the trace spells no operation at its head (R66). Safe. -/
  | badWord (reason : DecodeError)
  /-- Raised by `ADCC` when `ADBUSY = 0`: "no conversion is in progress, none can complete" (R112). Safe. -/
  | noConversion
  /-- Raised by `SVC` when `AWAKE = 0`: "the supervisor is asleep and cannot run" (R137). Safe. -/
  | supervisorAsleep
deriving DecidableEq, Repr

/-- The state after `Reset()` (R37, R185), `S0` of spec/95_test_vectors.md, with no trace loaded. -/
def State.reset : State where
  pt := 250
  tcnt := 0
  adsample := 0
  de := false
  ledn := true
  toie := false
  tov := false
  psc := 0
  adif := false
  adbusy := true
  wdc := 0
  awake := false
  trace := []

end Sys2Proof.Machine
end

