-- ==== Sys2Proof/Machine/Flags.lean ====
section
/-! DEFINITION. The overflow flag and the interrupt it raises (spec/10_state.md R33, spec/41_timing_engine.md R91, R100,
spec/60_exceptions.md R158). -/

namespace Sys2Proof.Machine

/-- The step of `TCNT` from 255 to 0 is the overflow, "the only carry out the block uses" (R100). -/
def timerWraps (c : Byte) : Bool := c == 255#8

/-- One tick of the counter and its flag, before any interrupt is taken (R91): `TOV` is set by the wrap whatever `TOIE` is
(R93) and is otherwise left alone. -/
def countTick (s : State) : State :=
  if timerWraps s.tcnt then { s with tcnt := 0#8, tov := true } else { s with tcnt := s.tcnt + 1#8 }

/-- The overflow interrupt is pending and enabled (R156, R158). -/
def overflowReady (s : State) : Bool := s.tov && s.toie

end Sys2Proof.Machine
end

