-- ==== Sys2Proof/Machine/Operands.lean ====
section
/-! DEFINITION. The source's own encodings on the calibration path (spec/30_encoding.md R61, R63). -/

namespace Sys2Proof.Machine

/-- `idx = sample[9:7]`, "`(sample >> 7) & 7`" (R61). -/
def calIndex (s : Sample) : TickIdx := s.extractLsb' 7 3

/-- `PT = (256 - T) mod 256`, total for any 8-bit table entry (R63). -/
def reload (t : Byte) : Byte := BitVec.ofNat 8 (256 - t.toNat)

/-- `PL = 256 - PT`, the pulse length in ticks that a reload value stands for (R12, R63). -/
def pulseLength (pt : Byte) : Nat := 256 - pt.toNat

end Sys2Proof.Machine
end

