-- ==== Sys2Proof/Machine/TickTable.lean ====
section
/-! DEFINITION. The block's one address space, the read-only Tick Table (spec/10_state.md R35, spec/20_memory.md R40 to R47).

It is an immutable constant and no part of the state (R38); there is no `MemWrite` (R42). -/

namespace Sys2Proof.Machine

/-- `TABLE` (R4, R40). -/
def tickTable : Vector Byte 8 := #v[1, 2, 3, 6, 12, 24, 47, 94]

/-- `MemRead(idx, 1)` (R41): every 3-bit index is in range, so the read cannot fail (R44). -/
def memRead (idx : TickIdx) : Byte := tickTable[idx.toNat]'idx.isLt

/-- The whole address map: the eight indices `0..7` and what each holds (R47). -/
def addressMap : List Host.Cell :=
  [(0, 1), (1, 2), (2, 3), (3, 6), (4, 12), (5, 24), (6, 47), (7, 94)]

/-- Addresses rise strictly: the canonical form of a list of cells. No address outside the list exists, so no cell can
repeat what an unlisted address reads as. -/
def Memory.wf : List Host.Cell → Bool
  | [] => true
  | [_] => true
  | (a, _) :: (b, y) :: rest => a < b && Memory.wf ((b, y) :: rest)

end Sys2Proof.Machine
end

