-- ==== Sys2Proof/Machine/Ops.lean ====
section
/-! DEFINITION. The procedures the operations share: reset, the three interrupt handlers, `Dispatch()`, the tick, the two
clocks and the calibration poll. Where a rule reads an OPEN parameter the procedure takes the parameters as an argument
(spec/00_scope.md R4).

Taking an interrupt saves nothing and switches nothing, and a handler returns by ending (spec/60_exceptions.md R167, R170):
the handler and `dispatch` are the whole of entry and return. -/

namespace Sys2Proof.Machine

open Sys2Proof.Config

/-- `Reset()` (spec/70_reset_and_hazards.md R185): every element at its reset value. The trace is not an element of the
block, and goes on after a reset (R141, R186). -/
def doReset (s : State) : State := { State.reset with trace := s.trace }

/-- `H_EDGE` (spec/40_edge_detector.md R81). -/
def hEdge (s : State) : State :=
  { s with de := true, ledn := false, tcnt := s.pt, psc := 0, tov := false, toie := true, awake := true }

/-- `H_OVF` (spec/41_timing_engine.md R94, total by R95). -/
def hOvf (s : State) : State :=
  if s.de then { s with tov := false, awake := true, de := false }
  else { s with tov := false, awake := true, ledn := true, toie := false }

/-- `H_WDT` (spec/44_power_supervisor.md R142). -/
def hWdt (s : State) : State := { s with awake := true }

/-- `Dispatch()` (spec/60_exceptions.md R158), the taking of a pending interrupt: the handler "clears TOV, so the loop body
runs at most once" (`Laws.dispatch_settles`). -/
def dispatch (s : State) : State := if overflowReady s then hOvf s else s

/-- `Tick()` (spec/41_timing_engine.md R91). -/
def tick (s : State) : State := dispatch (countTick s)

/-- `Clk1()`, one system-clock period (spec/41_timing_engine.md R90). -/
def clk1 (p : Params) (s : State) : State :=
  if s.psc = p.prescale - 1 then tick { s with psc := 0 } else { s with psc := s.psc + 1 }

/-- `Clk1()` performed `n` times, one after another (R60, R90). -/
def clkSteps (p : Params) (n : Nat) (s : State) : State := (clk1 p)^[n] s

/-- `Wd1()`, one watchdog-clock period (spec/44_power_supervisor.md R141). -/
def wd1 (p : Params) (s : State) : State :=
  if s.wdc + 1 = p.wRst then doReset s
  else if s.wdc + 1 = p.wInt then hWdt { s with wdc := s.wdc + 1 }
  else { s with wdc := s.wdc + 1 }

/-- `Wd1()` performed `n` times, one after another (R60, R141). -/
def wdSteps (p : Params) (n : Nat) (s : State) : State := (wd1 p)^[n] s

/-- `CalPoll()` (spec/42_calibration.md R114): with a sample waiting, look it up, set `PT`, consume it and start the next
conversion; without one, nothing. -/
def calPoll (s : State) : State :=
  if s.adif then
    { s with pt := reload (memRead (calIndex s.adsample)), adif := false, adbusy := true }
  else s

/-- A conversion completes with a reading (R112): the sample is latched whole (R45) and the supervisor woken. -/
def latchSample (v : Sample) (s : State) : State :=
  { s with adsample := v, adif := true, adbusy := false, awake := true }

/-- The body of a service pass (spec/44_power_supervisor.md R137): clear the watchdog, poll, sleep. -/
def servicePass (s : State) : State := { calPoll { s with wdc := 0 } with awake := false }

end Sys2Proof.Machine
end

