-- ==== Sys2Proof/Machine/Calibration.lean ====
section
/-! DEFINITION. The converter's half of the Calibration Subsystem (spec/42_calibration.md): `ADCC`. The other half, the poll,
runs in `SVC`. -/

namespace Sys2Proof.Machine

/-- `ADCC s` (R112): it completes the conversion in progress; with none in progress it has no step. No handler runs. -/
def execAdcc (v : Sample) (s : State) : Host.Outcome State Fault Refusal :=
  if s.adbusy then .next (latchSample v s) else .refused .noConversion

end Sys2Proof.Machine
end

