-- ==== Sys2Proof/Machine/EdgeDetector.lean ====
section
/-! DEFINITION. The Edge Detector (spec/40_edge_detector.md): `EDGE` and `RISE`. -/

namespace Sys2Proof.Machine

/-- `EDGE` (R80): enabled in every state; the handler runs in the same step (R157). -/
def execEdge (s : State) : Host.Outcome State Fault Refusal := .next (dispatch (hEdge s))

/-- `RISE` (R84): "it is the identity on every state"; it wakes nobody. -/
def execRise (s : State) : Host.Outcome State Fault Refusal := .next s

end Sys2Proof.Machine
end

