-- ==== Sys2Proof/Machine/PowerSupervisor.lean ====
section
/-! DEFINITION. The Power Supervisor (spec/44_power_supervisor.md): `SVC` and `WDCK`. -/

namespace Sys2Proof.Machine

/-- `SVC` (R137): an awake supervisor does its whole pass in one step; an asleep one cannot run. -/
def execSvc (s : State) : Host.Outcome State Fault Refusal :=
  if s.awake then .next (servicePass s) else .refused .supervisorAsleep

/-- `WDCK n` (R141): enabled in every state; after a reset part way it "goes on counting from 0". -/
def execWdck (n : Nat) (s : State) : Host.Outcome State Fault Refusal :=
  .next (wdSteps Sys2Proof.Config.params n s)

end Sys2Proof.Machine
end

