-- ==== Sys2Proof/Machine/ResetUnit.lean ====
section
/-! DEFINITION. External reset and power-on (spec/70_reset_and_hazards.md): `RST`. -/

namespace Sys2Proof.Machine

/-- `RST` (R186): enabled in every state; the same `Reset()` as the watchdog's (R143, R187). -/
def execRst (s : State) : Host.Outcome State Fault Refusal := .next (doReset s)

end Sys2Proof.Machine
end

