-- ==== Sys2Proof/Machine/TimingEngine.lean ====
section
/-! DEFINITION. The Timing Engine (spec/41_timing_engine.md): `CLK`. -/

namespace Sys2Proof.Machine

/-- `CLK n` (R90): enabled in every state, and not gated by the phase or by the supervisor's sleep (R102, R136). -/
def execClk (n : Nat) (s : State) : Host.Outcome State Fault Refusal :=
  .next (clkSteps Sys2Proof.Config.params n s)

end Sys2Proof.Machine
end

