-- ==== Sys2Proof/Machine/Dispatch.lean ====
section
/-! DEFINITION. One arm per operation. -/

namespace Sys2Proof.Machine

def exec (i : Instr) (s : State) : Host.Outcome State Fault Refusal :=
  match i with
  | .clk n => Sys2Proof.Machine.execClk n s
  | .edge => Sys2Proof.Machine.execEdge s
  | .rise => Sys2Proof.Machine.execRise s
  | .adcc v => Sys2Proof.Machine.execAdcc v s
  | .wdck n => Sys2Proof.Machine.execWdck n s
  | .svc => Sys2Proof.Machine.execSvc s
  | .rst => Sys2Proof.Machine.execRst s

end Sys2Proof.Machine
end

