-- ==== Sys2Proof/Machine/Fetch.lean ====
section
/-! DEFINITION. Where the next operation comes from: the block has no program counter and fetches nothing (spec/10_state.md
R30); operations are applied in the order of the trace (spec/00_scope.md R5, spec/30_encoding.md R57). -/

namespace Sys2Proof.Machine

/-- The operation at the head of the trace, and the state from which it is applied, its word taken off the trace. -/
def fetch (s : State) : Except DecodeError (Instr × State) :=
  match decode s.trace with
  | .ok (i, rest) => .ok (i, { s with trace := rest })
  | .error e => .error e

/-- An instruction of spec/opcode_table.json put at the head of the trace, before what is there. -/
def putFetchWord (nbits w : Nat) (s : State) : State := { s with trace := tableBytes nbits w ++ s.trace }

end Sys2Proof.Machine
end

