-- ==== Sys2Proof/Machine/Step.lean ====
section
/-! DEFINITION. One step: apply the operation at the head of the trace. -/

namespace Sys2Proof.Machine

/-- One operation is one atomic step (spec/00_scope.md R5, spec/20_memory.md R49). A trace with a refused word has no meaning
from that word on (spec/30_encoding.md R66). -/
def step (s : State) : Host.Outcome State Fault Refusal :=
  match fetch s with
  | .ok (i, t) => exec i t
  | .error e => .refused (.badWord e)

/-- The instruction stored where `step` takes its next operation: at the head of the trace. -/
def State.withFetchWord (s : State) (nbits w : Nat) : State := putFetchWord nbits w s

end Sys2Proof.Machine
end

