-- ==== Sys2Proof/Machine/Interrupts.lean ====
section
/-! DEFINITION. The interrupt sources (spec/60_exceptions.md R156) and their priority (R165). -/

namespace Sys2Proof.Machine

/-- The four sources of R156, which are the four wake events of spec/44_power_supervisor.md R135. -/
inductive IrqSource where
  | edge
  | overflow
  | watchdog
  | conversion
deriving DecidableEq, Repr

/-- "Enable": the state that gates the source; only the overflow interrupt can be masked (R156). -/
def IrqSource.enabled : IrqSource → State → Bool
  | .edge, _ => true
  | .overflow, s => s.toie
  | .watchdog, _ => true
  | .conversion, _ => true

/-- "Pending": the state that remembers an untaken interrupt. The edge and watchdog interrupts have none, being taken in the
step that raises them (R157). -/
def IrqSource.pending : IrqSource → State → Bool
  | .edge, _ => false
  | .overflow, s => s.tov
  | .watchdog, _ => false
  | .conversion, s => s.adif

/-- The fixed handlers (R160); conversion-complete has none: the supervisor polls it (R156). -/
def IrqSource.handler : IrqSource → Option (State → State)
  | .edge => some hEdge
  | .overflow => some hOvf
  | .watchdog => some hWdt
  | .conversion => none

/-- R165's order, 0 being the watchdog reset, which is not an interrupt. No rule of the model exercises it: `dispatch` has
one source to choose from (R158; notes/assumptions/20.md). -/
def IrqSource.priority : IrqSource → Nat
  | .edge => 1
  | .overflow => 2
  | .watchdog => 3
  | .conversion => 4

end Sys2Proof.Machine
end

