-- ==== Sys2Proof/Machine/Ports.lean ====
section
/-! DEFINITION. The input ports of spec/30_encoding.md R56: each event on a port is one operation. `SVC` comes from no port: the
supervisor issues it (spec/00_scope.md R5). -/

namespace Sys2Proof.Machine

/-- An event on an input port. -/
inductive PortEvent where
  /-- `txd` goes from one level to another (`true` is high). -/
  | txd (before after : Bool)
  /-- `rst_n` is asserted. -/
  | rstN
  /-- one period of `clk` -/
  | clk
  /-- one period of `wd_clk` -/
  | wdClk
  /-- `adc_eoc` with `adc_data` -/
  | adcEoc (data : Sample)
deriving DecidableEq, Repr

/-- The last column of R56's table. A `txd` that keeps its level is no event: the block sees edges only (R38, R86). -/
def PortEvent.operation : PortEvent → Option Instr
  | .txd true false => some .edge
  | .txd false true => some .rise
  | .txd _ _ => none
  | .rstN => some .rst
  | .clk => some (.clk 1)
  | .wdClk => some (.wdck 1)
  | .adcEoc data => some (.adcc data)

end Sys2Proof.Machine
end

