-- ==== Sys2Proof/Machine/Trace.lean ====
section
/-! DEFINITION. A trace as a sequence of operations (spec/00_scope.md R5), and the pseudo-operations of spec/30_encoding.md
R70. -/

namespace Sys2Proof.Machine

/-- The operations of a trace applied first to last, up to the first that is refused (R5, R49, R66). -/
def runOps : List Instr → State → Host.Outcome State Fault Refusal
  | [], s => .next s
  | i :: is, s =>
    match exec i s with
    | .next t => runOps is t
    | .fault r => .fault r
    | .refused r => .refused r

/-- The state with the words of some operations as its trace: "The initial state of every trace is the state after `Reset()`"
(R186) is `State.reset.withTrace`. -/
def State.withTrace (s : State) (is : List Instr) : State := { s with trace := encodeTrace is }

/-- The pseudo-operations of R70; `TICK` alone is `TICK 1`. -/
inductive Pseudo where
  | tick (k : Nat)
  | cal (i : TickIdx)
  | nop
deriving DecidableEq, Repr

/-- `n` clocks "split into words of at most 1023 clocks" (R70), and the one word `CLK n` where that holds them, `CLK 0`
included. How more clocks are split is left open by R70. DESIGN CHOICE (notes/assumptions/23.md): words of 1023 clocks first
and the rest, 1 to 1023 clocks, last. Safe: every split is the same clocks (R90). -/
def splitClocks (n : Nat) : List Instr :=
  List.replicate ((n - 1) / maxCount) (.clk maxCount) ++ [.clk (n - (n - 1) / maxCount * maxCount)]

/-- The expansion column of R70; the split of `TICK` is the choice that `splitClocks` names. -/
def Pseudo.expand (p : Sys2Proof.Config.Params) : Pseudo → List Instr
  | .tick k => splitClocks (k * p.prescale)
  | .cal i => [.adcc (BitVec.ofNat 10 (128 * i.toNat)), .svc]
  | .nop => [.rise]

end Sys2Proof.Machine
end

