-- ==== Sys2Proof/Machine/TraceText.lean ====
section
/-! DEFINITION. A trace in text form (spec/30_encoding.md R69): one operation per line, the mnemonic in capitals, then one
operand in decimal or in `0x` hexadecimal for formats C and S; `;` starts a comment, blank lines are ignored, and `CLK` and
`WDCK` without an operand mean a count of 1. The pseudo-operations of R70 are read too. What R69 leaves open is fixed in
notes/assumptions/13.md. Text is a list of characters. -/

namespace Sys2Proof.Machine

/-- Why a line is no line of a trace. -/
inductive TextError where
  | unknownMnemonic
  | badNumber
  | missingOperand
  | extraOperand
  | operandOutOfRange
deriving DecidableEq, Repr

/-- The text cut at every character that `sep` picks. -/
def cutAt (sep : Char → Bool) : List Char → List (List Char)
  | [] => [[]]
  | c :: cs =>
    match cutAt sep cs with
    | [] => [[c]]
    | w :: ws => if sep c then [] :: w :: ws else (c :: w) :: ws

/-- What separates the fields of a line. -/
def isBlank (c : Char) : Bool := c == ' ' || c == '\t' || c == '\r'

/-- The fields of a line, its comment left out. -/
def lineFields (line : List Char) : List (List Char) :=
  (cutAt isBlank (line.takeWhile (· != ';'))).filter (fun w => !w.isEmpty)

/-- A hexadecimal digit's value; a decimal digit's is the same. -/
def digitValue (c : Char) : Option Nat :=
  let n := c.toNat
  if 48 ≤ n ∧ n ≤ 57 then some (n - 48)
  else if 65 ≤ n ∧ n ≤ 70 then some (n - 55)
  else if 97 ≤ n ∧ n ≤ 102 then some (n - 87)
  else none

/-- Digits of a base, after those that gave `acc`. -/
def readDigits (base : Nat) : List Char → Nat → Option Nat
  | [], acc => some acc
  | c :: cs, acc =>
    match digitValue c with
    | some d => if d < base then readDigits base cs (base * acc + d) else none
    | none => none

/-- A number in decimal or in `0x` hexadecimal. -/
def readNumber : List Char → Option Nat
  | [] => none
  | ['0', 'x'] => none
  | '0' :: 'x' :: ds => readDigits 16 ds 0
  | ds => readDigits 10 ds 0

/-- The one operand of a line, at most `top`; `default` stands for a missing one. -/
def readOperand (default : Option Nat) (top : Option Nat) : List (List Char) → Except TextError Nat
  | [] =>
    match default with
    | some n => .ok n
    | none => .error .missingOperand
  | [w] =>
    match readNumber w with
    | none => .error .badNumber
    | some n => if top.all (n ≤ ·) then .ok n else .error .operandOutOfRange
  | _ => .error .extraOperand

/-- A line without an operand. -/
def noOperand (is : List Instr) : List (List Char) → Except TextError (List Instr)
  | [] => .ok is
  | _ => .error .extraOperand

/-- The operations that a line's fields spell. -/
def readFields (p : Sys2Proof.Config.Params) : List (List Char) → Except TextError (List Instr)
  | [] => .ok []
  | m :: ops =>
    match m with
    | ['C', 'L', 'K'] => (readOperand (some 1) (some maxCount) ops).map fun n => [.clk n]
    | ['E', 'D', 'G', 'E'] => noOperand [.edge] ops
    | ['R', 'I', 'S', 'E'] => noOperand [.rise] ops
    | ['A', 'D', 'C', 'C'] => (readOperand none (some 1023) ops).map fun n => [.adcc (BitVec.ofNat 10 n)]
    | ['W', 'D', 'C', 'K'] => (readOperand (some 1) (some maxCount) ops).map fun n => [.wdck n]
    | ['S', 'V', 'C'] => noOperand [.svc] ops
    | ['R', 'S', 'T'] => noOperand [.rst] ops
    | ['T', 'I', 'C', 'K'] => (readOperand (some 1) none ops).map fun k => (Pseudo.tick k).expand p
    | ['C', 'A', 'L'] => (readOperand none (some 7) ops).map fun i => (Pseudo.cal (BitVec.ofNat 3 i)).expand p
    | ['N', 'O', 'P'] => noOperand (Pseudo.nop.expand p) ops
    | _ => .error .unknownMnemonic

/-- The operations of some lines, in order. -/
def readLines (p : Sys2Proof.Config.Params) : List (List Char) → Except TextError (List Instr)
  | [] => .ok []
  | l :: ls =>
    match readFields p (lineFields l) with
    | .error e => .error e
    | .ok is => (readLines p ls).map (is ++ ·)

/-- A trace from its text. -/
def readTrace (p : Sys2Proof.Config.Params) (text : List Char) : Except TextError (List Instr) :=
  readLines p (cutAt (· == '\n') text)

end Sys2Proof.Machine
end

