-- ==== Sys2Proof/Machine/DriverLed.lean ====
section
/-! DEFINITION. What the state means outside: the phase of the Timing Engine (spec/10_state.md R31, spec/41_timing_engine.md
R96) and the outputs of the Driver/LED Controller (spec/43_driver_led.md R125, R126). -/

namespace Sys2Proof.Machine

/-- The values of `PHASE` (R31). -/
inductive Phase where
  | idle
  | armedShort
  | armedLong
deriving DecidableEq, Repr

/-- The code of a phase, "a name for the row and no rule computes with it" (R31). -/
def Phase.code : Phase → BitVec 2
  | .idle => 0
  | .armedShort => 1
  | .armedLong => 2

/-- `PHASE` as a function of `(DE, LEDn, TOIE)` (R31); the five other combinations, which R32 says are unreachable, have no
phase (notes/assumptions/21.md). -/
def State.phase (s : State) : Option Phase :=
  match s.de, s.ledn, s.toie with
  | false, true, false => some .idle
  | true, false, true => some .armedShort
  | false, false, true => some .armedLong
  | _, _, _ => none

/-- The column `overflow` of R96's transition table. -/
def Phase.onOverflow : Phase → Phase
  | .idle => .idle
  | .armedShort => .armedLong
  | .armedLong => .idle

/-- The two device pins, all that "a user of the device can observe" (spec/30_encoding.md R56, R64). -/
structure Outputs where
  /-- `de`, active high -/
  de : Bool
  /-- `led_n`, active low -/
  ledN : Bool
deriving DecidableEq, Repr

/-- "At every state the pin `de` carries `DE` and the pin `led_n` carries `LEDn`" (R126). -/
def State.outputs (s : State) : Outputs := ⟨s.de, s.ledn⟩

/-- The LED is lit when `LEDn = 0` (R17, R64). -/
def State.ledLit (s : State) : Bool := !s.ledn

/-- `adc_run`, the internal signal to the converter: it carries `ADBUSY` (R56). -/
def State.adcRun (s : State) : Bool := s.adbusy

end Sys2Proof.Machine
end

