-- ==== Sys2Proof/Safety.lean ====
section
/-! DEFINITION. The terms claims use: what holds in every state a run reaches, what each operation may write, and what a
sequence of operations does to the clocks. -/

namespace Sys2Proof.Machine

open Sys2Proof.Config

/-- `k` steps of the machine over its stored trace, up to the first that is refused. -/
def runSteps : Nat → State → Host.Outcome State Fault Refusal
  | 0, s => .next s
  | k + 1, s =>
    match step s with
    | .next t => runSteps k t
    | .fault r => .fault r
    | .refused r => .refused r

/-- Containment (spec/43_driver_led.md R127): `DE = 1` implies `LEDn = 0`. -/
def State.contained (s : State) : Bool := !s.de || !s.ledn

/-- What R12, R20, R22, R23, R32, R97, R144 and R158 say of every state reachable from reset. -/
structure State.Inv (p : Params) (s : State) : Prop where
  /-- `PT` is the reload value of a Tick Table entry (R12). -/
  pt_legal : ∃ idx : TickIdx, s.pt = reload (memRead idx)
  /-- `PSC` is in `0 .. N-1` (R20). -/
  psc_lt : s.psc < p.prescale
  /-- `WDC` is in `0 .. W_RST-1` (R23). -/
  wdc_lt : s.wdc < p.wRst
  /-- `(DE, LEDn, TOIE)` is one of the three phases (R32). -/
  phase_legal : s.phase ≠ none
  /-- In the short phase the counter is between the loaded `PT` and the wrap (R12, R97). -/
  short_count : s.de = true → 162 ≤ s.tcnt.toNat
  /-- No enabled overflow interrupt is left untaken (R158). -/
  no_untaken : overflowReady s = false
  /-- Exactly one of `ADIF` and `ADBUSY` is 1 (R22). -/
  adc_exclusive : s.adif = !s.adbusy
  /-- The supervisor is awake while a sample waits: `ADCC` wakes it, and `SVC` consumes the sample (R112, R137). -/
  sample_awake : s.adif = true → s.awake = true
  /-- The supervisor is awake from the `W_INT`-th watchdog clock on (R144). -/
  watchdog_awake : p.wInt ≤ s.wdc → s.awake = true

/-- The twelve elements of the state (spec/10_state.md R10). -/
inductive Element where
  | pt
  | tcnt
  | adsample
  | de
  | ledn
  | toie
  | tov
  | psc
  | adif
  | adbusy
  | wdc
  | awake
deriving DecidableEq, Repr

/-- Two states agree on an element. -/
def Element.same (e : Element) (s t : State) : Prop :=
  match e with
  | .pt => s.pt = t.pt
  | .tcnt => s.tcnt = t.tcnt
  | .adsample => s.adsample = t.adsample
  | .de => s.de = t.de
  | .ledn => s.ledn = t.ledn
  | .toie => s.toie = t.toie
  | .tov => s.tov = t.tov
  | .psc => s.psc = t.psc
  | .adif => s.adif = t.adif
  | .adbusy => s.adbusy = t.adbusy
  | .wdc => s.wdc = t.wdc
  | .awake => s.awake = t.awake

/-- The writes of R25's access matrix; the `Reset()` inside `WDCK` apart, which "writes every element". -/
def mayWrite : Instr → Element → Bool
  | .edge, e => e ∈ [.tcnt, .de, .ledn, .toie, .tov, .psc, .awake]
  | .rise, _ => false
  | .clk _, e => e ∈ [.tcnt, .de, .ledn, .toie, .tov, .psc, .awake]
  | .adcc _, e => e ∈ [.adsample, .adif, .adbusy, .awake]
  | .wdck _, e => e ∈ [.wdc, .awake]
  | .svc, e => e ∈ [.pt, .adif, .adbusy, .wdc, .awake]
  | .rst, _ => true

/-- The watchdog expires during an operation: one of its watchdog clocks makes `WDC` reach `W_RST` (R141). -/
def expires (p : Params) (s : State) : Instr → Bool
  | .wdck n => p.wRst ≤ s.wdc + n
  | _ => false

/-- The system clocks that operations bring. -/
def clocksOf : List Instr → Nat
  | [] => 0
  | .clk n :: is => n + clocksOf is
  | _ :: is => clocksOf is

/-- The watchdog clocks that operations bring. -/
def watchdogClocksOf : List Instr → Nat
  | [] => 0
  | .wdck n :: is => n + watchdogClocksOf is
  | _ :: is => watchdogClocksOf is

/-- The watchdog does not expire during operations that start at the count `w`: none of their watchdog clocks makes the count
reach `W_RST` (R141). A service pass and a reset start the count again from 0 (R137, R185). -/
def watchdogHolds (p : Params) : Nat → List Instr → Prop
  | _, [] => True
  | w, .wdck n :: is => w + n < p.wRst ∧ watchdogHolds p (w + n) is
  | _, .svc :: is => watchdogHolds p 0 is
  | _, .rst :: is => watchdogHolds p 0 is
  | w, _ :: is => watchdogHolds p w is

/-- The premise of R82 on a run made of an `EDGE` before each of some gaps, from state `s`: no gap holds an `EDGE` or a reset,
and each brings fewer clocks than the pulse lasts that the `EDGE` before it started, by the `PT` that this one loaded. -/
def gapsWithinPulse (p : Params) : List (List Instr) → State → Prop
  | [], _ => True
  | gap :: gaps, s =>
    (∀ i ∈ gap, i ≠ .edge ∧ i ≠ .rst) ∧ watchdogHolds p s.wdc gap ∧ clocksOf gap < pulseLength s.pt * p.prescale ∧
      ∀ t : State, runOps (.edge :: gap) s = .next t → gapsWithinPulse p gaps t

/-- The elements that decide the outputs from now on, `PT` apart: what spec/41_timing_engine.md calls the timing elements. -/
structure Timing where
  tcnt : Byte
  de : Bool
  ledn : Bool
  toie : Bool
  tov : Bool
  psc : Nat
deriving DecidableEq, Repr

/-- The timing elements of a state. -/
def State.timing (s : State) : Timing := ⟨s.tcnt, s.de, s.ledn, s.toie, s.tov, s.psc⟩

/-- Two states that differ at most in elements nothing will read before writing them (spec/10_state.md R36, R37): the timer
while the overflow interrupt is disabled, and the sample while none is valid. -/
structure Indistinct (s t : State) : Prop where
  pt : s.pt = t.pt
  de : s.de = t.de
  ledn : s.ledn = t.ledn
  toie : s.toie = t.toie
  adif : s.adif = t.adif
  adbusy : s.adbusy = t.adbusy
  wdc : s.wdc = t.wdc
  awake : s.awake = t.awake
  trace : s.trace = t.trace
  timer : s.toie = true → s.tcnt = t.tcnt ∧ s.tov = t.tov ∧ s.psc = t.psc
  sample : s.adif = true → s.adsample = t.adsample

end Sys2Proof.Machine
end

