-- ==== Sys2Proof/Certificates/Slice0/Obligations.lean ====
section
/-! DEFINITION. The statements for the provers. Each docstring names the rules of spec/ that the statement formalises or rests
on; a statement that rests on a rule which the spec marks as its own decision or derivation has the basis 'derived' in
OBLIGATIONS.json. Handlers run with zero latency throughout (decision D7 of the spec, notes/assumptions/7.md). `params` is the OPEN triple of spec/00_scope.md R4: every statement holds for each legal value. The Tick Table is the
block's whole memory and is a constant (R42), so an equation of states is also the frame over memory. -/

open Sys2Proof Sys2Proof.Machine Sys2Proof.Config

/-! ### Encoding -/

/-- Decode and encode agree: every well-formed operation, stored in front of any bytes, decodes to itself and leaves those
bytes (R57 to R60, R65; the encoding is the spec's decision D2). -/
def Obligations.DecodeEncodeRoundTrip : Prop :=
  ∀ (i : Instr) (rest : List Byte), i.wellFormed = true → decode (encode i ++ rest) = .ok (i, rest)

/-- Each word has one meaning: what decodes to an operation is that operation's own encoding and the rest, and the operation
is well formed (R59, R65). -/
def Obligations.EncodeDecodeRoundTrip : Prop :=
  ∀ (bytes rest : List Byte) (i : Instr), decode bytes = .ok (i, rest) → i.wellFormed = true ∧ bytes = encode i ++ rest

/-- The algorithm of R65 and the `match` and `mask` columns of R59 give every word the same operation, or none. -/
def Obligations.DecodeAgreesWithOperationMap : Prop :=
  ∀ (w : StimWord) (i : Instr),
    decodeWord w = .ok i ↔ ∃ r ∈ opTable, w &&& r.mask = r.pattern ∧ r.build (argField w) = i

/-- What R66 refuses by spelling, `step` refuses by the reason's name, in the order of R65's algorithm. -/
def Obligations.StepRefusesReservedWords : Prop :=
  ∀ (s : State) (hi lo : Byte) (rest : List Byte), s.trace = hi :: lo :: rest →
    (zField (bytesWord hi lo) ≠ 0 → step s = .refused (.badWord .reservedBits)) ∧
    (zField (bytesWord hi lo) = 0 →
      (opField (bytesWord hi lo)).toNat = 0 ∨ 8 ≤ (opField (bytesWord hi lo)).toNat →
        step s = .refused (.badWord .unassignedOp)) ∧
    (zField (bytesWord hi lo) = 0 → (opField (bytesWord hi lo)).toNat ∈ [2, 3, 6, 7] → argField (bytesWord hi lo) ≠ 0 →
        step s = .refused (.badWord .operandNotZero))

/-- Where the trace ends, `step` refuses: the model's own choice (notes/assumptions/2.md, notes/assumptions/14.md). -/
def Obligations.StepRefusesAtEndOfTrace : Prop :=
  ∀ s : State,
    (s.trace = [] → step s = .refused (.badWord .endOfTrace)) ∧
    (∀ b : Byte, s.trace = [b] → step s = .refused (.badWord .truncatedWord))

/-- A step runs the decoded operation, its word taken off the trace (R5, R57; the trace in the state is the model's,
notes/assumptions/2.md). -/
def Obligations.StepRunsDecodedOperation : Prop :=
  ∀ (s : State) (i : Instr) (rest : List Byte),
    decode s.trace = .ok (i, rest) → step s = exec i { s with trace := rest }

/-- Words written out from R59's bit patterns decode to their operations (R59, and V60 to V68 of spec/95_test_vectors.md). -/
def Obligations.WordsOfOperationMapDecode : Prop :=
  decodeWord 0b0001000000001100#16 = .ok (.clk 12) ∧ decodeWord 0b0010000000000000#16 = .ok .edge ∧
  decodeWord 0b0011000000000000#16 = .ok .rise ∧ decodeWord 0b0100001000000000#16 = .ok (.adcc 0x200#10) ∧
  decodeWord 0b0101001111111111#16 = .ok (.wdck 1023) ∧ decodeWord 0b0110000000000000#16 = .ok .svc ∧
  decodeWord 0b0111000000000000#16 = .ok .rst ∧ decodeWord 0x0000#16 = .error .unassignedOp ∧
  decodeWord 0xFFFF#16 = .error .reservedBits

/-- The machine over a stored trace does what the sequence of operations does, refusals included: `k` steps over the bytes of
`k` well-formed operations are the `k` operations in order (R5, R49, R57, R66). That the trace is a field of the state and
that a step takes one word off it is the model's choice (notes/assumptions/2.md). -/
def Obligations.StoredTraceRunsItsOperations : Prop :=
  ∀ (is : List Instr) (rest : List Byte) (s : State), (∀ i ∈ is, i.wellFormed = true) →
    runSteps is.length { s with trace := encodeTrace is ++ rest } = runOps is { s with trace := rest }

/-! ### EDGE and RISE -/

/-- `EDGE` answers in every state, writes the seven elements of `H_EDGE` and nothing else, reads `PT` alone, and leads to
`ARMED_SHORT`; a second `EDGE` changes nothing (R81; corner case (e) of R80). -/
def Obligations.EdgeStartsShortPhase : Prop :=
  ∀ s : State, ∃ t : State,
    exec .edge s = .next t ∧
    t = { s with
          de := true, ledn := false, tcnt := s.pt, psc := 0, tov := false, toie := true, awake := true } ∧
    t.phase = some .armedShort ∧ exec .edge t = .next t

/-- `RISE` answers in every state and changes nothing (R84, R67). -/
def Obligations.RiseChangesNothing : Prop :=
  ∀ s : State, exec .rise s = .next s

/-! ### CLK -/

/-- `CLK n` answers in every state. It leaves `PT`, `ADSAMPLE`, `ADIF`, `ADBUSY`, `WDC` and the trace as they are; it can
disable the driver, put the LED out, disable the interrupt and wake the supervisor, and not the reverse of any (R25, R90,
R94). -/
def Obligations.ClkAnswersWithFrame : Prop :=
  ∀ (n : Nat) (s : State), ∃ t : State,
    exec (.clk n) s = .next t ∧
    t.pt = s.pt ∧ t.adsample = s.adsample ∧ t.adif = s.adif ∧ t.adbusy = s.adbusy ∧ t.wdc = s.wdc ∧ t.trace = s.trace ∧
    (t.de = true → s.de = true) ∧ (s.ledn = true → t.ledn = true) ∧ (t.toie = true → s.toie = true) ∧
    (s.awake = true → t.awake = true)

/-- One system clock, in every state: the prescaler counts (R90); or a tick counts (R91); or a tick wraps with the interrupt
masked and sets `TOV` alone (R93); or the overflow interrupt is taken, in its first or its second form (R94). -/
def Obligations.OneClockResult : Prop :=
  ∀ s : State, exec (.clk 1) s = .next
    (if s.psc ≠ params.prescale - 1 then { s with psc := s.psc + 1 }
     else if s.tcnt ≠ 255#8 ∧ (s.tov = false ∨ s.toie = false) then { s with psc := 0, tcnt := s.tcnt + 1#8 }
     else if s.toie = false then { s with psc := 0, tcnt := 0#8, tov := true }
     else if s.de = true then
       { s with psc := 0, tcnt := s.tcnt + 1#8, tov := false, awake := true, de := false }
     else { s with psc := 0, tcnt := s.tcnt + 1#8, tov := false, awake := true, ledn := true, toie := false })

/-- "`CLK n` followed by `CLK m` is the same as `CLK (n+m)`", and `CLK 0` does nothing (R90, R67). -/
def Obligations.ClkCountsAdd : Prop :=
  ∀ (n m : Nat) (s : State), exec (.clk 0) s = .next s ∧
    ∃ t : State, exec (.clk n) s = .next t ∧ exec (.clk (n + m)) s = exec (.clk m) t

/-- The prescaler and the timer free-run in every phase: after `k` clocks the prescaler's phase and the counter are where `k`
clocks put them, one tick to every `N` clocks (R20, R92, R102). -/
def Obligations.TimerFreeRuns : Prop :=
  ∀ (k : Nat) (s : State), s.psc < params.prescale → ∃ t : State,
    exec (.clk k) s = .next t ∧ t.psc = (s.psc + k) % params.prescale ∧
    t.tcnt = s.tcnt + BitVec.ofNat 8 ((s.psc + k) / params.prescale)

/-- With the overflow interrupt disabled no number of clocks changes anything but the timer and its flag, and the flag is set
by the first wrap and stays set (R93, R99). -/
def Obligations.MaskedTimerOnlySetsItsFlag : Prop :=
  ∀ (k : Nat) (s : State), s.psc < params.prescale → s.toie = false →
    exec (.clk k) s = .next
      { s with
        psc := (s.psc + k) % params.prescale,
        tcnt := s.tcnt + BitVec.ofNat 8 ((s.psc + k) / params.prescale),
        tov := s.tov || decide (256 ≤ s.tcnt.toNat + (s.psc + k) / params.prescale) }

/-- The shape of one pulse, from every state whatever (stale `TOV` and mid-tick prescaler included): with `PT = p` loaded,
`k` clocks after the edge the phase is `ARMED_SHORT` for `k < (256 - p)·N`, then `ARMED_LONG` for 256 ticks, then `IDLE`; so
the driver is enabled for exactly `256 - p` ticks and the LED lit for exactly `(256 - p) + 256` (R83, R97, R98, R99, R129,
R195, R196). -/
def Obligations.PulseShape : Prop :=
  ∀ (s : State) (k : Nat), ∃ u t : State,
    exec .edge s = .next u ∧ exec (.clk k) u = .next t ∧
    t.phase = some (if k < pulseLength s.pt * params.prescale then .armedShort
      else if k < (pulseLength s.pt + 256) * params.prescale then .armedLong else .idle) ∧
    (t.de = true ↔ k < pulseLength s.pt * params.prescale) ∧
    (t.ledLit = true ↔ k < (pulseLength s.pt + 256) * params.prescale)

/-- The long phase lasts exactly 256 ticks from the first overflow, whatever `PT` is (R98). -/
def Obligations.LongPhaseIsOneFullTimerPeriod : Prop :=
  ∀ (s : State) (k : Nat), s.phase = some .armedLong → s.tcnt = 0#8 → s.psc = 0 → s.tov = false → ∃ t : State,
    exec (.clk k) s = .next t ∧
    t.phase = some (if k < 256 * params.prescale then .armedLong else .idle)

/-- From every state that meets the invariant, 512 ticks without an edge reach `IDLE`, and more leave it there (R99). -/
def Obligations.TimerTerminatesInIdle : Prop :=
  ∀ (s : State) (k : Nat), s.Inv params → 512 * params.prescale ≤ k → ∃ t : State,
    exec (.clk k) s = .next t ∧ t.phase = some .idle

/-- The transition table of R96 for one clock: an overflow takes each phase to the next, leaves `TCNT = 0` and leaves `TOV`
set in `IDLE` only; a clock without an overflow keeps the phase. -/
def Obligations.PhaseTransitionsOnClock : Prop :=
  ∀ (s : State) (ph : Phase), s.phase = some ph → overflowReady s = false →
    (s.psc = params.prescale - 1 → s.tcnt = 255#8 → ∃ t : State,
      exec (.clk 1) s = .next t ∧ t.phase = some ph.onOverflow ∧ t.tcnt = 0#8 ∧ (t.tov = true ↔ ph = .idle)) ∧
    (s.psc ≠ params.prescale - 1 ∨ s.tcnt ≠ 255#8 → ∃ t : State,
      exec (.clk 1) s = .next t ∧ t.phase = some ph)

/-- Retriggering: edges spaced by fewer clocks than the pulse lasts keep the driver enabled, up to fewer clocks than that
after the last (R82). -/
def Obligations.RetriggerKeepsDriverEnabled : Prop :=
  ∀ (s : State) (gaps : List Nat), gaps ≠ [] → (∀ k ∈ gaps, k < pulseLength s.pt * params.prescale) → ∃ t : State,
    runOps (gaps.flatMap fun k => [.edge, .clk k]) s = .next t ∧ t.de = true ∧ t.ledn = false

/-- Retriggering whatever else falls between the edges: conversions, service passes, rising edges and watchdog clocks may
stand anywhere in the gaps, and `PT` may change from one edge to the next. While each gap brings fewer clocks than the pulse
that its own edge started lasts, the driver stays enabled (R82). Every prefix of such a run is such a run. -/
def Obligations.RetriggerAmongOtherOperations : Prop :=
  ∀ (s t : State) (gaps : List (List Instr)), gaps ≠ [] → gapsWithinPulse params gaps s →
    runOps (gaps.flatMap fun gap => .edge :: gap) s = .next t → t.de = true ∧ t.ledn = false

/-- The tie of R197: with the overflow first the driver drops before the second edge, with the edge first it does not; the
second edge leads both to one state. -/
def Obligations.EdgeOverflowTie : Prop :=
  ∀ s : State, ∃ a b : State,
    runOps [.edge, .clk (pulseLength s.pt * params.prescale)] s = .next a ∧ a.de = false ∧
    runOps [.edge, .clk (pulseLength s.pt * params.prescale - 1)] s = .next b ∧ b.de = true ∧
    exec .edge a = exec .edge b

/-! ### ADCC -/

/-- `ADCC s` with a conversion in progress latches the sample, sets `ADIF`, clears `ADBUSY`, wakes the supervisor, and writes
nothing else: `PT` "changes at the following `SVC`" (R112). -/
def Obligations.AdccLatchesSample : Prop :=
  ∀ (v : Sample) (s : State), s.adbusy = true →
    exec (.adcc v) s = .next { s with adsample := v, adif := true, adbusy := false, awake := true }

/-- `ADCC` without a conversion in progress is refused by name, so a second `ADCC` after a first is (R112, R66). -/
def Obligations.AdccNeedsConversionInProgress : Prop :=
  ∀ (v w : Sample) (s : State),
    (s.adbusy = false → exec (.adcc v) s = .refused .noConversion) ∧
    (∀ t : State, exec (.adcc v) s = .next t → exec (.adcc w) t = .refused .noConversion)

/-! ### Calibration -/

/-- The Tick Table and the reload value of each entry; the table rises strictly (R40). -/
def Obligations.TickTableAndReloadValues : Prop :=
  (List.finRange 8).map (fun i => memRead (BitVec.ofFin i)) = [1#8, 2#8, 3#8, 6#8, 12#8, 24#8, 47#8, 94#8] ∧
  (List.finRange 8).map (fun i => reload (memRead (BitVec.ofFin i))) =
    [255#8, 254#8, 253#8, 250#8, 244#8, 232#8, 209#8, 162#8] ∧
  ∀ i j : TickIdx, i < j → memRead i < memRead j

/-- The index is the sample's top three bits: `(sample >> 7) & 7`, and the sample lies in the 128 values of its index (R61,
R62). -/
def Obligations.CalibrationIndexIsTopThreeBits : Prop :=
  ∀ v : Sample, (calIndex v).toNat = (v.toNat >>> 7) &&& 7 ∧
    128 * (calIndex v).toNat ≤ v.toNat ∧ v.toNat ≤ 128 * (calIndex v).toNat + 127

/-- The reload value is `(256 - T) mod 256` for every 8-bit `T`, and `PL = 256 - PT` inverts it for every `T` but 0 (R63). -/
def Obligations.ReloadValueInverts : Prop :=
  ∀ t : Byte, (reload t).toNat = (256 - t.toNat) % 256 ∧ (t ≠ 0 → pulseLength (reload t) = t.toNat)

/-- An awake supervisor's pass answers: it clears the watchdog and sleeps; a waiting sample sets `PT` to
`256 - TABLE[sample[9:7]]`, is consumed, and the next conversion starts; without one nothing else is written (R114, R137). -/
def Obligations.ServicePassResult : Prop :=
  ∀ s : State, s.awake = true → exec .svc s = .next
    (if s.adif = true then
      { s with
        wdc := 0, awake := false, adif := false, adbusy := true,
        pt := BitVec.ofNat 8 (256 - (memRead (s.adsample.extractLsb' 7 3)).toNat) }
     else { s with wdc := 0, awake := false })

/-- `SVC` is refused by name while the supervisor sleeps, so one wake enables one `SVC` (R137, R66). -/
def Obligations.SvcNeedsAwakeSupervisor : Prop :=
  ∀ s : State,
    (s.awake = false → exec .svc s = .refused .supervisorAsleep) ∧
    (∀ t : State, exec .svc s = .next t → exec .svc t = .refused .supervisorAsleep)

/-- Every calibration index gives its pulse: after `ADCC s; SVC; EDGE` and `k` clocks, `PT = 256 - TABLE[s[9:7]]` and the
driver is still enabled exactly while `k < TABLE[s[9:7]]·N` (R115). -/
def Obligations.EveryIndexGivesItsPulse : Prop :=
  ∀ (v : Sample) (s : State) (k : Nat), s.adbusy = true → ∃ t : State,
    runOps [.adcc v, .svc, .edge, .clk k] s = .next t ∧
    t.pt.toNat = 256 - (memRead (calIndex v)).toNat ∧
    (t.de = true ↔ k < (memRead (calIndex v)).toNat * params.prescale)

/-- The race of R50: an edge before the service pass loads the old `PT`, an edge after it the new one; the pass leaves a
count under way alone (R117, R198). -/
def Obligations.EdgeRacesCalibration : Prop :=
  ∀ (v : Sample) (s : State), s.adbusy = true → ∃ a b : State,
    runOps [.adcc v, .edge, .svc] s = .next a ∧ runOps [.adcc v, .svc, .edge] s = .next b ∧
    a.tcnt = s.pt ∧ b.tcnt = reload (memRead (calIndex v)) ∧ a.pt = b.tcnt ∧ b.pt = b.tcnt ∧
    a.phase = some .armedShort ∧ b.phase = some .armedShort

/-- `PT` reflects the most recent completed conversion (R116). -/
def Obligations.LatestConversionWins : Prop :=
  ∀ (v w : Sample) (s : State), s.adbusy = true → ∃ t : State,
    runOps [.adcc v, .svc, .adcc w, .svc] s = .next t ∧ t.pt = reload (memRead (calIndex w)) ∧ t.adbusy = true ∧
    t.adif = false

/-- A conversion that never completes: without an `ADCC`, `ADIF` stays 0 and `PT` stays at its default (R113). -/
def Obligations.NoConversionKeepsDefault : Prop :=
  ∀ (is : List Instr) (s t : State), (∀ i ∈ is, ∀ v : Sample, i ≠ .adcc v) → s.adif = false → s.pt = 250#8 →
    runOps is s = .next t → t.adif = false ∧ t.pt = 250#8

/-- The default reload value is live from reset: whatever comes first, an `EDGE` gives a pulse of 6 ticks "until the first
`ADCC` and the `SVC` after it": up to the first conversion, and past it while no service pass has taken its sample (R190, R119,
R97). -/
def Obligations.DefaultPulseBeforeCalibration : Prop :=
  ∀ (before after : List Instr) (s : State) (k : Nat),
    (∀ i ∈ before, ∀ v : Sample, i ≠ .adcc v) → (∀ i ∈ after, i ≠ .svc) →
    runOps (before ++ after) State.reset = .next s → ∃ u t : State,
      exec .edge s = .next u ∧ u.tcnt = 250#8 ∧ exec (.clk k) u = .next t ∧
      (t.de = true ↔ k < 6 * params.prescale)

/-! ### WDCK and RST -/

/-- One watchdog clock, in every state: reset at `W_RST`, wake at `W_INT`, count otherwise (R141, R142). -/
def Obligations.OneWatchdogClockResult : Prop :=
  ∀ s : State, exec (.wdck 1) s = .next
    (if s.wdc + 1 = params.wRst then { State.reset with trace := s.trace }
     else if s.wdc + 1 = params.wInt then { s with wdc := s.wdc + 1, awake := true }
     else { s with wdc := s.wdc + 1 })

/-- `WDCK n` for every `n`: below `W_RST` only `WDC` counts, and the supervisor is woken if the count passes `W_INT`; from
`W_RST` on every element is as reset leaves it, `WDC` has gone on counting from 0, and the supervisor is awake if that count
has reached `W_INT` (R141, R142). -/
def Obligations.WatchdogCountResult : Prop :=
  ∀ (n : Nat) (s : State), s.wdc < params.wRst → exec (.wdck n) s = .next
    (if s.wdc + n < params.wRst then
      { s with
        wdc := s.wdc + n,
        awake := s.awake || decide (s.wdc < params.wInt ∧ params.wInt ≤ s.wdc + n) }
     else
      { State.reset with
        wdc := (s.wdc + n) % params.wRst,
        awake := decide (params.wInt ≤ (s.wdc + n) % params.wRst),
        trace := s.trace })

/-- The watchdog reset "is the same `Reset()` as the external reset's": a pulse in progress is cut short and `PT` returns to
250 (R143). -/
def Obligations.WatchdogResetIsFullReset : Prop :=
  ∀ s : State, s.wdc + 1 = params.wRst → ∃ t : State,
    exec (.wdck 1) s = .next t ∧ exec .rst s = .next t ∧ t.de = false ∧ t.ledn = true ∧ t.pt = 250#8 ∧
    t.phase = some .idle

/-- No starvation: counting from a cleared watchdog, `W_INT` watchdog clocks wake the supervisor whatever else happens
between them, short of the service pass itself or a reset (R144). -/
def Obligations.SupervisorIsNotStarved : Prop :=
  ∀ (is : List Instr) (s t : State), s.wdc = 0 → (∀ i ∈ is, i ≠ .svc ∧ i ≠ .rst) →
    params.wInt ≤ watchdogClocksOf is → watchdogClocksOf is < params.wRst →
    runOps is s = .next t → t.awake = true

/-- Scenario C: with no edges and no conversions, watchdog clocks up to the interrupt and a service pass before the reset come
back to the same state, any number of times (R144, R201). -/
def Obligations.ServicedWatchdogChangesNothing : Prop :=
  ∀ (m n : Nat) (s : State), s.wdc = 0 → s.adif = false → s.awake = false → params.wInt ≤ n → n < params.wRst →
    runOps (List.replicate m [Instr.wdck n, .svc]).flatten s = .next s

/-- `RST` answers in every state with every element at its reset value (R185, R186). The values of `TCNT`, `ADSAMPLE`, `TOV`
and `PSC` are the spec's decision D10, those of `ADBUSY`, `WDC` and `AWAKE` its decisions D13, D11 and D12
(notes/assumptions/5.md, notes/assumptions/6.md). -/
def Obligations.RstRestoresEveryElement : Prop :=
  ∀ s : State, exec .rst s = .next
    { pt := 250, tcnt := 0, adsample := 0, de := false, ledn := true, toie := false, tov := false, psc := 0,
      adif := false, adbusy := true, wdc := 0, awake := false, trace := s.trace }

/-! ### The whole block -/

/-- The state after reset meets the invariant (R32, R37). -/
def Obligations.ResetMeetsInvariant : Prop :=
  State.reset.Inv params

/-- Every step keeps the invariant: legal `PT`, counters in range, a legal phase, no untaken enabled interrupt, exactly one of
`ADIF` and `ADBUSY`, and a supervisor that is awake while it owes a service (R12, R20, R22, R23, R32, R97, R144, R158). -/
def Obligations.StepKeepsInvariant : Prop :=
  ∀ s t : State, s.Inv params → step s = .next t → t.Inv params

/-- Containment: every step keeps `DE = 1 → LEDn = 0`, and it holds in every state a run from reset reaches (R127). -/
def Obligations.DriverEnabledOnlyWithLedLit : Prop :=
  (∀ s t : State, s.contained = true → step s = .next t → t.contained = true) ∧
  (∀ (is : List Instr) (t : State), runOps is State.reset = .next t → t.contained = true)

/-- `Dispatch()` "may be called after every operation without changing anything" (R158). -/
def Obligations.DispatchAfterAnyOperationIsIdle : Prop :=
  ∀ (i : Instr) (s t : State), s.Inv params → exec i s = .next t → dispatch t = t

/-- The overflow row of R156's table: `Dispatch()` takes the interrupt when it is pending and enabled, which runs its handler,
clears it and wakes the supervisor; a masked or absent one runs nothing (R158). -/
def Obligations.DispatchTakesEnabledOverflow : Prop :=
  ∀ s : State,
    (IrqSource.overflow.pending s = true → IrqSource.overflow.enabled s = true →
      dispatch s = hOvf s ∧ IrqSource.overflow.pending (dispatch s) = false ∧ (dispatch s).awake = true) ∧
    (IrqSource.overflow.pending s = false ∨ IrqSource.overflow.enabled s = false → dispatch s = s)

/-- The write half of the access matrix of R25: an operation that does not reset the block leaves every element alone whose
cell has no `w`. -/
def Obligations.AccessMatrixWrites : Prop :=
  ∀ (i : Instr) (e : Element) (s t : State), exec i s = .next t → mayWrite i e = false → expires params s i = false →
    e.same s t

/-- Only `EDGE` takes an output out of its idle value (R125, R130). -/
def Obligations.OnlyEdgeAssertsOutputs : Prop :=
  ∀ (i : Instr) (s t : State), exec i s = .next t →
    (s.de = false ∧ t.de = true) ∨ (s.ledn = true ∧ t.ledn = false) → i = .edge

/-- Only a service pass with a sample waiting, and reset, change `PT` (R12, R114). -/
def Obligations.OnlyServiceAndResetChangePt : Prop :=
  ∀ (i : Instr) (s t : State), exec i s = .next t → t.pt ≠ s.pt →
    (i = .svc ∧ s.adif = true) ∨ i = .rst ∨ expires params s i = true

/-- With no edge ever, nothing moves: any operations but `EDGE` keep an idle block idle (R130, R99). -/
def Obligations.NoEdgeNoPulse : Prop :=
  ∀ (is : List Instr) (s t : State), (∀ i ∈ is, i ≠ .edge) → s.phase = some .idle → runOps is s = .next t →
    t.phase = some .idle ∧ t.outputs = ⟨false, true⟩

/-- The timing elements depend on the clocks alone: between edges and resets, conversions, service passes, rising edges and
watchdog clocks may fall anywhere among the clocks without changing what the clocks do, for any number of watchdog clocks
that the service passes keep short of a watchdog reset (R6, R117, R136). -/
def Obligations.TimingFollowsClocksAlone : Prop :=
  ∀ (is : List Instr) (s t : State), (∀ i ∈ is, i ≠ .edge ∧ i ≠ .rst) →
    watchdogHolds params s.wdc is → runOps is s = .next t → ∃ u : State,
      exec (.clk (clocksOf is)) s = .next u ∧ t.timing = u.timing

/-- Sleep stops the supervisor and nothing else: every operation but `SVC` does the same, `AWAKE` apart, whether the
supervisor sleeps or not (R136). -/
def Obligations.SleepStopsOnlySupervisor : Prop :=
  ∀ (i : Instr) (b : Bool) (s t : State), i ≠ .svc → exec i s = .next t → ∃ u : State,
    exec i { s with awake := b } = .next u ∧ { u with awake := t.awake } = t

/-- The four reset values the source does not give are unobservable: reset with any others in their place is indistinct from
reset (R36, R37; D10, notes/assumptions/5.md). -/
def Obligations.ResetValuesIndistinct : Prop :=
  ∀ (a : Byte) (b : Nat) (c : Bool) (d : Sample),
    Indistinct State.reset { State.reset with tcnt := a, psc := b, tov := c, adsample := d }

/-- Indistinct states stay so under every sequence of operations, refusals included: no output and no later value of `PT`,
`DE`, `LEDn`, `TOIE`, `ADIF`, `ADBUSY`, `WDC` or `AWAKE` depends on a masked timer or a stale sample (R36, R37). -/
def Obligations.MaskedTimerAndStaleSampleUnobservable : Prop :=
  ∀ (is : List Instr) (s t : State), Indistinct s t →
    (∀ u : State, runOps is s = .next u → ∃ v : State, runOps is t = .next v ∧ Indistinct u v) ∧
    (∀ r : Refusal, runOps is s = .refused r → runOps is t = .refused r)

/-- From every state `CLK`, `WDCK`, `EDGE`, `RISE` and `RST` are enabled, and so is one of `ADCC` and `SVC` in every state that
meets the invariant (spec/93_implementation_defined.md section 1; R112, R137). -/
def Obligations.BlockIsNeverStuck : Prop :=
  ∀ (s : State) (n : Nat) (v : Sample),
    (∃ t, exec (.clk n) s = .next t) ∧ (∃ t, exec (.wdck n) s = .next t) ∧ (∃ t, exec .edge s = .next t) ∧
    (∃ t, exec .rise s = .next t) ∧ (∃ t, exec .rst s = .next t) ∧
    (s.Inv params → (∃ t, exec (.adcc v) s = .next t) ∨ (∃ t, exec .svc s = .next t))

/-! ### Outside the block -/

/-- `PHASE` as R31 tabulates it. -/
def Obligations.PhaseTable : Prop :=
  ∀ s : State,
    (s.phase = some .idle ↔ s.de = false ∧ s.ledn = true ∧ s.toie = false) ∧
    (s.phase = some .armedShort ↔ s.de = true ∧ s.ledn = false ∧ s.toie = true) ∧
    (s.phase = some .armedLong ↔ s.de = false ∧ s.ledn = false ∧ s.toie = true)

/-- `TICK k` is `k·N` clocks in words that hold them, the one word `CLK k·N` where that does (`k = 0` included), `CAL i` sets
`PT` to `256 - TABLE[i]`, and `NOP` does nothing (R70). The statement does not say how more than 1023 clocks are split: that
is the model's choice (notes/assumptions/23.md). -/
def Obligations.PseudoOperationsExpand : Prop :=
  ∀ s : State,
    (∀ k : Nat, (∀ i ∈ (Pseudo.tick k).expand params, i.wellFormed = true) ∧
      runOps ((Pseudo.tick k).expand params) s = exec (.clk (k * params.prescale)) s ∧
      (k * params.prescale ≤ maxCount → (Pseudo.tick k).expand params = [.clk (k * params.prescale)])) ∧
    (∀ i : TickIdx, s.adbusy = true → ∃ t : State,
      runOps ((Pseudo.cal i).expand params) s = .next t ∧ t.pt.toNat = 256 - (memRead i).toNat) ∧
    runOps (Pseudo.nop.expand params) s = .next s

/-- Text and words agree: every operation that a line of text spells is one that a word spells, so that its stored trace
decodes to it (R58, R69). -/
def Obligations.TextSpellsWellFormedOperations : Prop :=
  ∀ (p : Params) (text : List Char) (is : List Instr), readTrace p text = .ok is → ∀ i ∈ is, i.wellFormed = true
end

