-- ==== Sys2Proof/Laws/Decode.lean ====
section
/-! SUPPORT. The fields of a stimulus word and its bytes. -/

namespace Sys2Proof

@[simp] theorem opField_stimWord (op : BitVec 4) (arg : BitVec 10) : opField (stimWord op arg) = op := by
  ext i hi
  have h1 : ¬ 12 + i < 12 := by omega
  have h2 : 12 + i < 16 := by omega
  have h3 : arg.getLsbD (12 + i) = false := BitVec.getLsbD_of_ge arg (12 + i) (by omega)
  simp [opField, stimWord, h1, h2, h3, BitVec.getLsbD_eq_getElem hi]

@[simp] theorem zField_stimWord (op : BitVec 4) (arg : BitVec 10) : zField (stimWord op arg) = 0 := by
  ext i hi
  have h1 : 10 + i < 12 := by omega
  simp [zField, stimWord, h1]

@[simp] theorem argField_stimWord (op : BitVec 4) (arg : BitVec 10) : argField (stimWord op arg) = arg := by
  ext i hi
  have h1 : i < 12 := by omega
  have h2 : i < 16 := by omega
  simp [argField, stimWord, h1, h2, BitVec.getLsbD_eq_getElem hi]

/-- A word whose reserved bits are zero is made of its two other fields. -/
theorem stimWord_fields (w : StimWord) (h : zField w = 0) : stimWord (opField w) (argField w) = w := by
  ext i hi
  have hz : ∀ k : Nat, k < 2 → w.getLsbD (10 + k) = false := fun k hk => by
    simpa [zField, BitVec.getLsbD_extractLsb', hk] using congrArg (·.getLsbD k) h
  simp [stimWord, opField, argField, BitVec.getLsbD_extractLsb']
  by_cases h1 : i < 10
  · have h2 : i < 12 := by omega
    simp [h1, h2, hi]
  · by_cases h2 : i < 12
    · have := hz (i - 10) (by omega)
      rw [show 10 + (i - 10) = i by omega, BitVec.getLsbD_eq_getElem hi] at this
      simp [h1, h2, this]
    · have h3 : i - 12 < 4 := by omega
      have h4 : 12 + (i - 12) = i := by omega
      simp [h1, h2, h3, h4, hi]

@[simp] theorem bytesWord_wordBytes (w : StimWord) :
    bytesWord (w.extractLsb' 8 8) (w.extractLsb' 0 8) = w := by
  ext i hi
  simp [bytesWord, BitVec.getLsbD_extractLsb']
  by_cases h1 : i < 8
  · simp [h1, hi]
  · have h2 : i - 8 < 8 := by omega
    have h3 : 8 + (i - 8) = i := by omega
    simp [h1, h2, h3, hi]

theorem wordBytes_bytesWord (hi lo : Byte) : wordBytes (bytesWord hi lo) = [hi, lo] := by
  have h1 : (bytesWord hi lo).extractLsb' 8 8 = hi := by
    ext i h
    have : 8 + i < 16 := by omega
    simp [bytesWord, this, BitVec.getLsbD_eq_getElem h]
  have h2 : (bytesWord hi lo).extractLsb' 0 8 = lo := by
    ext i h
    have : i < 16 := by omega
    simp [bytesWord, h, this]
  simp [wordBytes, h1, h2]

/-- A stored word decodes as the word does. -/
theorem decode_wordBytes (w : StimWord) (rest : List Byte) :
    decode (wordBytes w ++ rest) = (decodeWord w).map (fun i => (i, rest)) := by
  simp only [wordBytes, List.cons_append, List.nil_append, decode, bytesWord_wordBytes]
  cases decodeWord w <;> rfl

/-- What decodes to an operation is two bytes that spell it, and what is left over. -/
theorem decode_ok {bs rest : List Byte} {i : Instr} (h : decode bs = .ok (i, rest)) :
    ∃ hi lo, bs = hi :: lo :: rest ∧ decodeWord (bytesWord hi lo) = .ok i := by
  match bs with
  | [] => simp [decode] at h
  | [_] => simp [decode] at h
  | hi :: lo :: tl =>
    simp only [decode] at h
    split at h
    · next j hj => cases h; exact ⟨hi, lo, rfl, hj⟩
    · cases h

end Sys2Proof
end

