-- ==== Sys2Proof/Laws/State.lean ====
section
/-! SUPPORT. One lemma per field per update of the state. -/

namespace Sys2Proof.Machine

/-! `doReset`: every element of R185, the trace alone kept -/

@[simp] theorem doReset_pt (s : State) : (doReset s).pt = 250 := rfl
@[simp] theorem doReset_tcnt (s : State) : (doReset s).tcnt = 0 := rfl
@[simp] theorem doReset_adsample (s : State) : (doReset s).adsample = 0 := rfl
@[simp] theorem doReset_de (s : State) : (doReset s).de = false := rfl
@[simp] theorem doReset_ledn (s : State) : (doReset s).ledn = true := rfl
@[simp] theorem doReset_toie (s : State) : (doReset s).toie = false := rfl
@[simp] theorem doReset_tov (s : State) : (doReset s).tov = false := rfl
@[simp] theorem doReset_psc (s : State) : (doReset s).psc = 0 := rfl
@[simp] theorem doReset_adif (s : State) : (doReset s).adif = false := rfl
@[simp] theorem doReset_adbusy (s : State) : (doReset s).adbusy = true := rfl
@[simp] theorem doReset_wdc (s : State) : (doReset s).wdc = 0 := rfl
@[simp] theorem doReset_awake (s : State) : (doReset s).awake = false := rfl
@[simp] theorem doReset_trace (s : State) : (doReset s).trace = s.trace := rfl

/-! `hEdge`: the seven writes of R81 -/

@[simp] theorem hEdge_pt (s : State) : (hEdge s).pt = s.pt := rfl
@[simp] theorem hEdge_tcnt (s : State) : (hEdge s).tcnt = s.pt := rfl
@[simp] theorem hEdge_adsample (s : State) : (hEdge s).adsample = s.adsample := rfl
@[simp] theorem hEdge_de (s : State) : (hEdge s).de = true := rfl
@[simp] theorem hEdge_ledn (s : State) : (hEdge s).ledn = false := rfl
@[simp] theorem hEdge_toie (s : State) : (hEdge s).toie = true := rfl
@[simp] theorem hEdge_tov (s : State) : (hEdge s).tov = false := rfl
@[simp] theorem hEdge_psc (s : State) : (hEdge s).psc = 0 := rfl
@[simp] theorem hEdge_adif (s : State) : (hEdge s).adif = s.adif := rfl
@[simp] theorem hEdge_adbusy (s : State) : (hEdge s).adbusy = s.adbusy := rfl
@[simp] theorem hEdge_wdc (s : State) : (hEdge s).wdc = s.wdc := rfl
@[simp] theorem hEdge_awake (s : State) : (hEdge s).awake = true := rfl
@[simp] theorem hEdge_trace (s : State) : (hEdge s).trace = s.trace := rfl

/-! `hWdt`: the one write of R142 -/

@[simp] theorem hWdt_pt (s : State) : (hWdt s).pt = s.pt := rfl
@[simp] theorem hWdt_tcnt (s : State) : (hWdt s).tcnt = s.tcnt := rfl
@[simp] theorem hWdt_adsample (s : State) : (hWdt s).adsample = s.adsample := rfl
@[simp] theorem hWdt_de (s : State) : (hWdt s).de = s.de := rfl
@[simp] theorem hWdt_ledn (s : State) : (hWdt s).ledn = s.ledn := rfl
@[simp] theorem hWdt_toie (s : State) : (hWdt s).toie = s.toie := rfl
@[simp] theorem hWdt_tov (s : State) : (hWdt s).tov = s.tov := rfl
@[simp] theorem hWdt_psc (s : State) : (hWdt s).psc = s.psc := rfl
@[simp] theorem hWdt_adif (s : State) : (hWdt s).adif = s.adif := rfl
@[simp] theorem hWdt_adbusy (s : State) : (hWdt s).adbusy = s.adbusy := rfl
@[simp] theorem hWdt_wdc (s : State) : (hWdt s).wdc = s.wdc := rfl
@[simp] theorem hWdt_awake (s : State) : (hWdt s).awake = true := rfl
@[simp] theorem hWdt_trace (s : State) : (hWdt s).trace = s.trace := rfl

/-! `latchSample`: the four writes of R112 -/

@[simp] theorem latchSample_pt (v : Sample) (s : State) : (latchSample v s).pt = s.pt := rfl
@[simp] theorem latchSample_tcnt (v : Sample) (s : State) : (latchSample v s).tcnt = s.tcnt := rfl
@[simp] theorem latchSample_adsample (v : Sample) (s : State) : (latchSample v s).adsample = v := rfl
@[simp] theorem latchSample_de (v : Sample) (s : State) : (latchSample v s).de = s.de := rfl
@[simp] theorem latchSample_ledn (v : Sample) (s : State) : (latchSample v s).ledn = s.ledn := rfl
@[simp] theorem latchSample_toie (v : Sample) (s : State) : (latchSample v s).toie = s.toie := rfl
@[simp] theorem latchSample_tov (v : Sample) (s : State) : (latchSample v s).tov = s.tov := rfl
@[simp] theorem latchSample_psc (v : Sample) (s : State) : (latchSample v s).psc = s.psc := rfl
@[simp] theorem latchSample_adif (v : Sample) (s : State) : (latchSample v s).adif = true := rfl
@[simp] theorem latchSample_adbusy (v : Sample) (s : State) : (latchSample v s).adbusy = false := rfl
@[simp] theorem latchSample_wdc (v : Sample) (s : State) : (latchSample v s).wdc = s.wdc := rfl
@[simp] theorem latchSample_awake (v : Sample) (s : State) : (latchSample v s).awake = true := rfl
@[simp] theorem latchSample_trace (v : Sample) (s : State) : (latchSample v s).trace = s.trace := rfl

/-! `State.withTrace`: the trace alone -/

@[simp] theorem State.withTrace_pt (s : State) (is : List Instr) : (s.withTrace is).pt = s.pt := rfl
@[simp] theorem State.withTrace_tcnt (s : State) (is : List Instr) : (s.withTrace is).tcnt = s.tcnt := rfl
@[simp] theorem State.withTrace_adsample (s : State) (is : List Instr) : (s.withTrace is).adsample = s.adsample := rfl
@[simp] theorem State.withTrace_de (s : State) (is : List Instr) : (s.withTrace is).de = s.de := rfl
@[simp] theorem State.withTrace_ledn (s : State) (is : List Instr) : (s.withTrace is).ledn = s.ledn := rfl
@[simp] theorem State.withTrace_toie (s : State) (is : List Instr) : (s.withTrace is).toie = s.toie := rfl
@[simp] theorem State.withTrace_tov (s : State) (is : List Instr) : (s.withTrace is).tov = s.tov := rfl
@[simp] theorem State.withTrace_psc (s : State) (is : List Instr) : (s.withTrace is).psc = s.psc := rfl
@[simp] theorem State.withTrace_adif (s : State) (is : List Instr) : (s.withTrace is).adif = s.adif := rfl
@[simp] theorem State.withTrace_adbusy (s : State) (is : List Instr) : (s.withTrace is).adbusy = s.adbusy := rfl
@[simp] theorem State.withTrace_wdc (s : State) (is : List Instr) : (s.withTrace is).wdc = s.wdc := rfl
@[simp] theorem State.withTrace_awake (s : State) (is : List Instr) : (s.withTrace is).awake = s.awake := rfl
@[simp] theorem State.withTrace_trace (s : State) (is : List Instr) : (s.withTrace is).trace = encodeTrace is := rfl

/-- The state after reset is a fixed point of reset (R186: "`RST` in the reset state changes nothing"). -/
@[simp] theorem doReset_reset : doReset State.reset = State.reset := rfl

@[simp] theorem doReset_doReset (s : State) : doReset (doReset s) = doReset s := rfl

end Sys2Proof.Machine
end

