-- ==== Sys2Proof/Laws/Ops.lean ====
section
/-! SUPPORT. What each shared operation can do, said once. -/

namespace Sys2Proof.Machine

open Sys2Proof.Config

/-! ### Parameters and the Tick Table -/

theorem prescale_pos (p : Params) : 0 < p.prescale := Nat.succ_pos _

theorem wInt_pos (p : Params) : 0 < p.wInt := Nat.succ_pos _

theorem wInt_lt_wRst (p : Params) : p.wInt < p.wRst := by
  unfold Params.wRst; omega

/-- The address map is in canonical form and holds what `memRead` reads. -/
theorem addressMap_wf : Memory.wf addressMap = true := by decide

theorem addressMap_memRead (idx : TickIdx) : (idx.toNat, memRead idx) ∈ addressMap := by
  revert idx; decide

/-- Every reload value is at least `256 - 94`. -/
theorem reload_memRead_ge (idx : TickIdx) : 162 ≤ (reload (memRead idx)).toNat := by
  revert idx; decide

/-! ### Handlers and `Dispatch()` -/

theorem hOvf_short {s : State} (h : s.de = true) :
    hOvf s = { s with tov := false, awake := true, de := false } := by simp [hOvf, h]

theorem hOvf_long {s : State} (h : s.de = false) :
    hOvf s = { s with tov := false, awake := true, ledn := true, toie := false } := by simp [hOvf, h]

/-- `Dispatch()` runs `H_OVF`, or does nothing. -/
theorem dispatch_cases (s : State) :
    (overflowReady s = true ∧ dispatch s = hOvf s) ∨ (overflowReady s = false ∧ dispatch s = s) := by
  cases h : overflowReady s <;> simp [dispatch, h]

theorem overflowReady_hOvf (s : State) : overflowReady (hOvf s) = false := by
  cases h : s.de <;> simp [hOvf, h, overflowReady]

/-- After `Dispatch()` its loop condition is false: the loop body runs at most once (R158). -/
theorem dispatch_settles (s : State) : overflowReady (dispatch s) = false := by
  rcases dispatch_cases s with ⟨_, h⟩ | ⟨h, h'⟩
  · rw [h, overflowReady_hOvf]
  · rw [h', h]

theorem dispatch_of_not_ready {s : State} (h : overflowReady s = false) : dispatch s = s := by simp [dispatch, h]

/-- After `H_EDGE` there is no interrupt to take (R80). -/
@[simp] theorem dispatch_hEdge (s : State) : dispatch (hEdge s) = hEdge s := dispatch_of_not_ready rfl

/-! ### The tick and the system clock -/

theorem countTick_cases (s : State) :
    (s.tcnt = 255#8 ∧ countTick s = { s with tcnt := 0#8, tov := true }) ∨
    (s.tcnt ≠ 255#8 ∧ countTick s = { s with tcnt := s.tcnt + 1#8 }) := by
  by_cases h : s.tcnt = 255#8 <;> simp [countTick, timerWraps, h]

/-- The counter's next value, wrap or not (R91). -/
theorem countTick_tcnt (s : State) : (countTick s).tcnt = s.tcnt + 1#8 := by
  rcases countTick_cases s with ⟨h, h'⟩ | ⟨_, h'⟩ <;> rw [h']
  rw [h]; rfl

/-- What a tick can do: count, set `TOV` with the interrupt masked, or take the overflow interrupt in its first or its second
form. -/
theorem tick_cases (s : State) :
    (s.tcnt ≠ 255#8 ∧ overflowReady s = false ∧ tick s = { s with tcnt := s.tcnt + 1#8 }) ∨
    (s.tcnt = 255#8 ∧ s.toie = false ∧ tick s = { s with tcnt := 0#8, tov := true }) ∨
    ((s.tcnt = 255#8 ∨ s.tov = true) ∧ s.toie = true ∧ s.de = true ∧
      tick s = { s with tcnt := s.tcnt + 1#8, tov := false, awake := true, de := false }) ∨
    ((s.tcnt = 255#8 ∨ s.tov = true) ∧ s.toie = true ∧ s.de = false ∧
      tick s = { s with tcnt := s.tcnt + 1#8, tov := false, awake := true, ledn := true, toie := false }) := by
  rcases countTick_cases s with ⟨h, h'⟩ | ⟨h, h'⟩ <;>
    cases hi : s.toie <;> cases hv : s.tov <;> cases hd : s.de <;>
    simp [tick, h', dispatch, overflowReady, hOvf, h, hi, hv, hd]

/-- What one system clock can do (R90): the prescaler counts, or it wraps and the clock is one of `tick_cases`. -/
theorem clk1_cases (p : Params) (s : State) :
    (s.psc ≠ p.prescale - 1 ∧ clk1 p s = { s with psc := s.psc + 1 }) ∨
    (s.psc = p.prescale - 1 ∧ s.tcnt ≠ 255#8 ∧ overflowReady s = false ∧
      clk1 p s = { s with psc := 0, tcnt := s.tcnt + 1#8 }) ∨
    (s.psc = p.prescale - 1 ∧ s.tcnt = 255#8 ∧ s.toie = false ∧
      clk1 p s = { s with psc := 0, tcnt := 0#8, tov := true }) ∨
    (s.psc = p.prescale - 1 ∧ (s.tcnt = 255#8 ∨ s.tov = true) ∧ s.toie = true ∧ s.de = true ∧
      clk1 p s = { s with psc := 0, tcnt := s.tcnt + 1#8, tov := false, awake := true, de := false }) ∨
    (s.psc = p.prescale - 1 ∧ (s.tcnt = 255#8 ∨ s.tov = true) ∧ s.toie = true ∧ s.de = false ∧
      clk1 p s = { s with psc := 0, tcnt := s.tcnt + 1#8, tov := false, awake := true, ledn := true, toie := false }) := by
  by_cases h : s.psc = p.prescale - 1
  · have hc : clk1 p s = tick { s with psc := 0 } := by simp [clk1, h]
    rw [hc]
    rcases tick_cases { s with psc := 0 } with ⟨h1, h2, h3⟩ | ⟨h1, h2, h3⟩ | ⟨h1, h2, h3, h4⟩ | ⟨h1, h2, h3, h4⟩
    · exact .inr (.inl ⟨h, h1, h2, h3⟩)
    · exact .inr (.inr (.inl ⟨h, h1, h2, h3⟩))
    · exact .inr (.inr (.inr (.inl ⟨h, h1, h2, h3, h4⟩)))
    · exact .inr (.inr (.inr (.inr ⟨h, h1, h2, h3, h4⟩)))
  · exact .inl ⟨h, by simp [clk1, h]⟩

@[simp] theorem clkSteps_zero (p : Params) (s : State) : clkSteps p 0 s = s := rfl

theorem clkSteps_succ (p : Params) (n : Nat) (s : State) : clkSteps p (n + 1) s = clkSteps p n (clk1 p s) := rfl

/-- Clocks add up (R90). -/
theorem clkSteps_add (p : Params) (n m : Nat) (s : State) : clkSteps p (n + m) s = clkSteps p m (clkSteps p n s) := by
  unfold clkSteps; rw [Nat.add_comm, Function.iterate_add_apply]

/-- What every system clock keeps, `CLK` keeps. -/
theorem clkSteps_preserve (p : Params) {P : State → Prop} (h : ∀ s, P s → P (clk1 p s)) (n : Nat) {s : State}
    (hs : P s) : P (clkSteps p n s) := by
  induction n generalizing s with
  | zero => exact hs
  | succ n ih => exact ih (h s hs)

/-! ### The watchdog clock -/

/-- What one watchdog clock can do (R141). -/
theorem wd1_cases (p : Params) (s : State) :
    (s.wdc + 1 = p.wRst ∧ wd1 p s = doReset s) ∨
    (s.wdc + 1 = p.wInt ∧ wd1 p s = { s with wdc := s.wdc + 1, awake := true }) ∨
    (s.wdc + 1 ≠ p.wRst ∧ s.wdc + 1 ≠ p.wInt ∧ wd1 p s = { s with wdc := s.wdc + 1 }) := by
  have := wInt_lt_wRst p
  by_cases h : s.wdc + 1 = p.wRst
  · simp [wd1, h]
  · by_cases h' : s.wdc + 1 = p.wInt
    · have : p.wInt ≠ p.wRst := by omega
      simp [wd1, h', this, hWdt]
    · simp [wd1, h, h']

@[simp] theorem wdSteps_zero (p : Params) (s : State) : wdSteps p 0 s = s := rfl

theorem wdSteps_succ (p : Params) (n : Nat) (s : State) : wdSteps p (n + 1) s = wdSteps p n (wd1 p s) := rfl

theorem wdSteps_add (p : Params) (n m : Nat) (s : State) : wdSteps p (n + m) s = wdSteps p m (wdSteps p n s) := by
  unfold wdSteps; rw [Nat.add_comm, Function.iterate_add_apply]

/-- What every watchdog clock keeps, `WDCK` keeps. -/
theorem wdSteps_preserve (p : Params) {P : State → Prop} (h : ∀ s, P s → P (wd1 p s)) (n : Nat) {s : State}
    (hs : P s) : P (wdSteps p n s) := by
  induction n generalizing s with
  | zero => exact hs
  | succ n ih => exact ih (h s hs)

/-! ### Calibration and service -/

/-- What the poll can do (R114). -/
theorem calPoll_cases (s : State) :
    (s.adif = true ∧ calPoll s =
      { s with pt := reload (memRead (calIndex s.adsample)), adif := false, adbusy := true }) ∨
    (s.adif = false ∧ calPoll s = s) := by
  cases h : s.adif <;> simp [calPoll, h]

/-- What a service pass can do (R137). -/
theorem servicePass_cases (s : State) :
    (s.adif = true ∧ servicePass s =
      { s with pt := reload (memRead (calIndex s.adsample)), adif := false, adbusy := true, wdc := 0, awake := false }) ∨
    (s.adif = false ∧ servicePass s = { s with wdc := 0, awake := false }) := by
  cases h : s.adif <;> simp [servicePass, calPoll, h]

end Sys2Proof.Machine
end

