-- ==== Sys2Proof/Laws/Exec.lean ====
section
/-! SUPPORT. What each operation can do, and what a sequence of operations and a step do. -/

namespace Sys2Proof.Machine

/-! ### Operations -/

@[simp] theorem exec_clk (n : Nat) (s : State) :
    exec (.clk n) s = .next (clkSteps Sys2Proof.Config.params n s) := rfl

@[simp] theorem exec_edge (s : State) : exec .edge s = .next (hEdge s) := by
  show Host.Outcome.next (dispatch (hEdge s)) = _
  rw [dispatch_hEdge]

@[simp] theorem exec_rise (s : State) : exec .rise s = .next s := rfl

theorem exec_adcc_next {v : Sample} {s t : State} :
    exec (.adcc v) s = .next t ↔ s.adbusy = true ∧ t = latchSample v s := by
  cases h : s.adbusy <;> simp [exec, execAdcc, h, eq_comm]

@[simp] theorem exec_wdck (n : Nat) (s : State) :
    exec (.wdck n) s = .next (wdSteps Sys2Proof.Config.params n s) := rfl

theorem exec_svc_next {s t : State} : exec .svc s = .next t ↔ s.awake = true ∧ t = servicePass s := by
  cases h : s.awake <;> simp [exec, execSvc, h, eq_comm]

@[simp] theorem exec_rst (s : State) : exec .rst s = .next (doReset s) := rfl

/-- Every next state an operation can answer. -/
theorem exec_next_cases {i : Instr} {s t : State} (h : exec i s = .next t) :
    (∃ n, i = .clk n ∧ t = clkSteps Sys2Proof.Config.params n s) ∨ (i = .edge ∧ t = hEdge s) ∨ (i = .rise ∧ t = s) ∨
    (∃ v, i = .adcc v ∧ s.adbusy = true ∧ t = latchSample v s) ∨
    (∃ n, i = .wdck n ∧ t = wdSteps Sys2Proof.Config.params n s) ∨
    (i = .svc ∧ s.awake = true ∧ t = servicePass s) ∨ (i = .rst ∧ t = doReset s) := by
  cases i with
  | adcc v => simpa using exec_adcc_next.1 h
  | svc => simpa using exec_svc_next.1 h
  | edge => rw [exec_edge] at h; cases h; simp
  | clk n => cases h; simp
  | rise => cases h; simp
  | wdck n => cases h; simp
  | rst => cases h; simp

/-! ### Sequences of operations -/

@[simp] theorem runOps_nil (s : State) : runOps [] s = .next s := rfl

theorem runOps_cons {i : Instr} {is : List Instr} {s t : State} (h : exec i s = .next t) :
    runOps (i :: is) s = runOps is t := by
  show (match exec i s with
    | .next t => runOps is t | .fault r => .fault r | .refused r => .refused r) = _
  rw [h]

theorem runOps_cons_next {i : Instr} {is : List Instr} {s u : State} :
    runOps (i :: is) s = .next u ↔ ∃ t, exec i s = .next t ∧ runOps is t = .next u := by
  cases h : exec i s with
  | next t => rw [runOps_cons h]; simp
  | fault r => cases r
  | refused r => simp [runOps, h]

theorem runOps_append_next {is js : List Instr} {s u : State} :
    runOps (is ++ js) s = .next u ↔ ∃ t, runOps is s = .next t ∧ runOps js t = .next u := by
  induction is generalizing s with
  | nil => simp
  | cons i is ih =>
    simp only [List.cons_append, runOps_cons_next, ih]
    constructor
    · rintro ⟨a, ha, b, hb, hc⟩; exact ⟨b, ⟨a, ha, hb⟩, hc⟩
    · rintro ⟨b, ⟨a, ha, hb⟩, hc⟩; exact ⟨a, ha, b, hb, hc⟩

/-- What every operation of a kind keeps, a sequence of operations of that kind keeps. -/
theorem runOps_preserve {P : State → Prop} {Q : Instr → Prop}
    (h : ∀ i s t, Q i → P s → exec i s = .next t → P t) {is : List Instr} {s t : State} (hq : ∀ i ∈ is, Q i) (hs : P s)
    (hr : runOps is s = .next t) : P t := by
  induction is generalizing s with
  | nil => cases hr; exact hs
  | cons i is ih =>
    obtain ⟨u, hi, hrest⟩ := runOps_cons_next.1 hr
    exact ih (fun j hj => hq j (List.mem_cons_of_mem i hj)) (h i s u (hq i List.mem_cons_self) hs hi) hrest

/-- Operations whose watchdog clocks together do not make the count reach `W_RST` do not let the watchdog expire, service
passes or not. -/
theorem watchdogHolds_of_sum_lt {p : Sys2Proof.Config.Params} {is : List Instr} {w : Nat}
    (h : w + watchdogClocksOf is < p.wRst) : watchdogHolds p w is := by
  induction is generalizing w with
  | nil => exact trivial
  | cons i is ih =>
    cases i with
    | wdck n =>
      have h' : w + (n + watchdogClocksOf is) < p.wRst := h
      exact ⟨by omega, ih (by omega)⟩
    | svc =>
      have h' : w + watchdogClocksOf is < p.wRst := h
      exact ih (by omega)
    | rst =>
      have h' : w + watchdogClocksOf is < p.wRst := h
      exact ih (by omega)
    | clk n => exact ih h
    | edge => exact ih h
    | rise => exact ih h
    | adcc v => exact ih h

/-! ### The step -/

/-- A step that answers a next state applied an operation that the trace spells. -/
theorem step_next {s t : State} (h : step s = .next t) :
    ∃ i rest, decode s.trace = .ok (i, rest) ∧ exec i { s with trace := rest } = .next t := by
  unfold step fetch at h
  cases hd : decode s.trace with
  | ok r => obtain ⟨i, rest⟩ := r; exact ⟨i, rest, rfl, by simpa [hd] using h⟩
  | error e => simp [hd] at h

theorem runSteps_succ_next {k : Nat} {s t : State} (h : step s = .next t) : runSteps (k + 1) s = runSteps k t := by
  simp [runSteps, h]

theorem runSteps_succ_refused {k : Nat} {s : State} {r : Refusal} (h : step s = .refused r) :
    runSteps (k + 1) s = .refused r := by
  simp [runSteps, h]

end Sys2Proof.Machine
end

