-- ==== Sys2Proof/Laws/PerInstr.lean ====
section
/-! SUPPORT. Facts about every operation, one lemma per constructor. -/

namespace Sys2Proof.Laws

/-- The word of a well-formed operation lies in the operation's own row of R59: `w & mask = match`, and the row builds the
operation from the word's `arg`. -/
def EncodesInItsRow.Statement (i : Instr) : Prop :=
  i.wellFormed = true →
    encodeWord i &&& i.row.mask = i.row.pattern ∧ i.row.build (argField (encodeWord i)) = i

/-- The mask of formats C and S keeps `op` and `z` and drops `arg`. -/
theorem stimWord_mask (op : BitVec 4) (arg : BitVec 10) :
    stimWord op arg &&& 0xFC00#16 = stimWord op 0 := by
  have h : ∀ a : BitVec 10, a.setWidth 16 &&& 0xFC00#16 = 0#16 := by decide
  have h' : ∀ o : BitVec 4, o.setWidth 16 <<< 12 &&& 0xFC00#16 = o.setWidth 16 <<< 12 := by decide
  simp only [stimWord, BitVec.and_or_distrib_right, h, h']
  rfl

/-- A count in range survives its ten bits (R60). -/
theorem count_toNat {n : Nat} (h : n ≤ maxCount) : (BitVec.ofNat 10 n).toNat = n := by
  rw [BitVec.toNat_ofNat]
  exact Nat.mod_eq_of_lt (Nat.lt_succ_of_le h)

theorem EncodesInItsRow.clk (n : Nat) : EncodesInItsRow.Statement (.clk n) := fun h => by
  have hn : n ≤ maxCount := by simpa [Instr.wellFormed] using h
  exact ⟨stimWord_mask _ _, by
    rw [encodeWord, argField_stimWord]; exact congrArg Instr.clk (count_toNat hn)⟩

theorem EncodesInItsRow.edge : EncodesInItsRow.Statement .edge := fun _ => by decide

theorem EncodesInItsRow.rise : EncodesInItsRow.Statement .rise := fun _ => by decide

theorem EncodesInItsRow.adcc (s : Sample) : EncodesInItsRow.Statement (.adcc s) := fun _ =>
  ⟨stimWord_mask _ _, by simp [encodeWord, Instr.row]⟩

theorem EncodesInItsRow.wdck (n : Nat) : EncodesInItsRow.Statement (.wdck n) := fun h => by
  have hn : n ≤ maxCount := by simpa [Instr.wellFormed] using h
  exact ⟨stimWord_mask _ _, by
    rw [encodeWord, argField_stimWord]; exact congrArg Instr.wdck (count_toNat hn)⟩

theorem EncodesInItsRow.svc : EncodesInItsRow.Statement .svc := fun _ => by decide

theorem EncodesInItsRow.rst : EncodesInItsRow.Statement .rst := fun _ => by decide

end Sys2Proof.Laws
end

