-- ==== Sys2Proof/Tests/Slice0.lean ====
section
/-! SUPPORT. Tests of one step each, the expected results taken from spec/95_test_vectors.md and the worked examples of the
rules, and a witness for the hypotheses of each statement. -/

namespace Sys2Proof.Tests

open Sys2Proof.Machine Sys2Proof.Config

/-- The next state of an outcome, if it has one. -/
def nextOf : Host.Outcome State Fault Refusal → Option State
  | .next s => some s
  | .fault _ => none
  | .refused _ => none

/-- The refusal of an outcome, if it is one. -/
def refusalOf : Host.Outcome State Fault Refusal → Option Refusal
  | .next _ => none
  | .fault _ => none
  | .refused r => some r

/-- The parameters of the vectors: `N = 1`, `W_INT = 4`, `W_RST = 6`. -/
def vec : Params := ⟨0, 3, 1⟩

/-- The same with `N = 4`. -/
def vec4 : Params := ⟨3, 3, 1⟩

/-- The state of V16: a pulse just started from reset. -/
def pulse : State := { State.reset with tcnt := 250, de := true, ledn := false, toie := true, awake := true }

/-! ### Well-formedness -/

theorem test_clk_count_too_large : (Instr.clk 1024).wellFormed = false := by decide
theorem test_wdck_count_too_large : (Instr.wdck 1024).wellFormed = false := by decide
theorem test_clk_count_largest : (Instr.clk 1023).wellFormed = true := by decide

/-! ### Decoding: words written out bit by bit from R59 -/

theorem test_decode_clk : decode [0b00010000#8, 0b00001011#8] = .ok (.clk 11, []) := by decide
theorem test_decode_clk_largest : decode [0b00010011#8, 0b11111111#8] = .ok (.clk 1023, []) := by decide
theorem test_decode_edge : decode [0b00100000#8, 0b00000000#8, 7#8] = .ok (.edge, [7#8]) := by decide
theorem test_decode_rise : decode [0b00110000#8, 0b00000000#8] = .ok (.rise, []) := by decide
theorem test_decode_adcc : decode [0b01000010#8, 0b00000001#8] = .ok (.adcc 0b1000000001#10, []) := by decide
theorem test_decode_wdck : decode [0b01010000#8, 0b00000100#8] = .ok (.wdck 4, []) := by decide
theorem test_decode_svc : decode [0b01100000#8, 0b00000000#8] = .ok (.svc, []) := by decide
theorem test_decode_rst : decode [0b01110000#8, 0b00000000#8] = .ok (.rst, []) := by decide

/-- V60 to V66. -/
theorem test_decode_refused :
    [0x0000#16, 0xFFFF#16, 0x8000#16, 0x2001#16, 0x3010#16, 0x7001#16, 0x1400#16].map decodeWord =
      [.error .unassignedOp, .error .reservedBits, .error .unassignedOp, .error .operandNotZero, .error .operandNotZero,
        .error .operandNotZero, .error .reservedBits] := by decide

theorem test_decode_half_word : decode [0x20#8] = .error .truncatedWord := by decide

/-- The table numbers the one word's bits from its least significant. -/
theorem test_decodeTableWord : decodeTableWord 16 0x43FF = some (.adcc 1023#10) := by decide

theorem test_encode_adcc : encode (.adcc 0x200#10) = [0x42#8, 0x00#8] := by decide

/-! ### EDGE, RISE -/

/-- V14, last word: a stale `TOV` is discarded. -/
theorem test_edge_stale_overflow : nextOf (exec .edge { State.reset with tov := true }) = some pulse := by decide

/-- V17, last word: `EDGE` resets the prescaler. -/
theorem test_edge_prescaler : nextOf (exec .edge { State.reset with psc := 3 }) = some pulse := by decide

/-- V16. -/
theorem test_rise : nextOf (exec .rise pulse) = some pulse := by decide

/-! ### CLK -/

/-- V24: the second overflow. -/
theorem test_clk_second_overflow :
    clkSteps vec 1 { State.reset with tcnt := 255, ledn := false, toie := true } =
      { State.reset with tcnt := 0, awake := true } := by decide

/-- V26, third and fourth word: with `N = 4` the first tick comes on the fourth clock after the edge. -/
theorem test_clk_prescaler :
    clkSteps vec4 3 pulse = { pulse with psc := 3 } ∧ clkSteps vec4 4 pulse = { pulse with tcnt := 251 } := by decide

/-- V22, last word: a wrap in `IDLE` sets `TOV` and does not wake. -/
theorem test_tick_masked : tick { State.reset with tcnt := 255 } = { State.reset with tov := true } := by decide

/-- V23, last word: the first overflow. -/
theorem test_tick_first_overflow : tick { pulse with tcnt := 255 } = { pulse with tcnt := 0, de := false } := by decide

/-! ### ADCC, SVC -/

/-- The worked example of R112. -/
theorem test_adcc :
    nextOf (exec (.adcc 0x200#10) State.reset) =
      some { State.reset with adsample := 512, adif := true, adbusy := false, awake := true } := by decide

/-- V37. -/
theorem test_adcc_refused :
    refusalOf (exec (.adcc 1#10) { State.reset with adbusy := false }) = some .noConversion := by decide

/-- The worked example of R137. -/
theorem test_svc :
    nextOf (exec .svc
      { State.reset with adsample := 0x200, adif := true, adbusy := false, awake := true, wdc := 3 }) =
        some { State.reset with adsample := 0x200, pt := 244 } := by decide

/-- V40. -/
theorem test_svc_refused : refusalOf (exec .svc State.reset) = some .supervisorAsleep := by decide

/-- V31, V32, V34 and V35: the ends of the samples of an index. -/
theorem test_reload_of_samples :
    [127#10, 128#10, 895#10, 1023#10].map (fun v => reload (memRead (calIndex v))) = [255#8, 254#8, 209#8, 162#8] := by
  decide

/-! ### WDCK, RST -/

/-- The worked example of R141: the fourth watchdog clock wakes. -/
theorem test_wdck_interrupt :
    wdSteps vec 1 { State.reset with wdc := 3 } = { State.reset with wdc := 4, awake := true } := by decide

/-- V44, last word: the sixth resets a pulse in progress. -/
theorem test_wdck_reset : wdSteps vec 1 { pulse with wdc := 5 } = State.reset := by decide

/-- The worked example of R186 (V52). -/
theorem test_rst :
    nextOf (exec .rst { pulse with pt := 162, tcnt := 172, adsample := 896, wdc := 2 }) = some State.reset := by decide

/-! ### The step, ports, text -/

theorem test_step_takes_fetch_word : nextOf (step (State.reset.withFetchWord 16 0x2000)) = some pulse := by decide

theorem test_step_end_of_trace : refusalOf (step State.reset) = some (.badWord .endOfTrace) := by decide

/-- R56: a falling edge of `txd` is one `EDGE`, a level that stays is nothing. -/
theorem test_ports :
    [PortEvent.txd true false, .txd false true, .txd true true].map PortEvent.operation =
      [some .edge, some .rise, none] := by decide

/-- R165: an edge goes before an overflow. -/
theorem test_priority : IrqSource.edge.priority < IrqSource.overflow.priority := by decide

/-- R69's examples, and a pseudo-operation of P2 with its comment. -/
theorem test_text :
    readTrace vec ['E', 'D', 'G', 'E', '\n', 'C', 'L', 'K', ' ', '1', '2', '\n', '\n',
        'A', 'D', 'C', 'C', ' ', '0', 'x', '2', '0', '0', ' ', ';', 'S', '\n', 'C', 'L', 'K', '\n',
        'C', 'A', 'L', ' ', '7'] =
      .ok [.edge, .clk 12, .adcc 0x200#10, .clk 1, .adcc 0x380#10, .svc] := by decide

/-- R70: `TICK 0` is the word `CLK 0`, and 256 ticks with `N = 4` are 1024 clocks in words of at most 1023. -/
theorem test_tick_words :
    (Pseudo.tick 0).expand vec4 = [.clk 0] ∧ (Pseudo.tick 256).expand vec4 = [.clk 1023, .clk 1] := by decide

/-! ### Witnesses: a state and operands that meet the hypotheses of the statement each theorem is named after -/

theorem pulse_edge : exec .edge State.reset = .next pulse := rfl

/-- The invariant holds in the pulse's first state. -/
theorem pulse_inv : pulse.Inv params where
  pt_legal := ⟨3, by decide⟩
  psc_lt := prescale_pos params
  wdc_lt := Nat.succ_pos _
  phase_legal := by decide
  short_count := by decide
  no_untaken := by decide
  adc_exclusive := by decide
  sample_awake := by decide
  watchdog_awake := fun _ => rfl

theorem test_witness_DecodeEncodeRoundTrip :
    (Instr.clk 1023).wellFormed = true ∧ (Instr.clk 0).wellFormed = true := by decide

theorem test_witness_EncodeDecodeRoundTrip : decode [0x43#8, 0xFF#8] = .ok (.adcc 1023#10, []) := by decide

/-- One word for each refusal, at the ends of its range. -/
theorem test_witness_StepRefusesReservedWords :
    (zField (bytesWord 0x14#8 0x00#8) ≠ 0 ∧ zField (bytesWord 0x1F#8 0xFF#8) ≠ 0) ∧
    (zField (bytesWord 0x80#8 0x00#8) = 0 ∧ 8 ≤ (opField (bytesWord 0x80#8 0x00#8)).toNat) ∧
    (zField (bytesWord 0x00#8 0x00#8) = 0 ∧ (opField (bytesWord 0x00#8 0x00#8)).toNat = 0) ∧
    (zField (bytesWord 0x20#8 0x01#8) = 0 ∧ (opField (bytesWord 0x20#8 0x01#8)).toNat ∈ [2, 3, 6, 7] ∧
      argField (bytesWord 0x20#8 0x01#8) ≠ 0) := by decide

theorem test_witness_StepRefusesAtEndOfTrace :
    State.reset.trace = [] ∧ ({ State.reset with trace := [0x20#8] } : State).trace = [0x20#8] := by decide

theorem test_witness_StepRunsDecodedOperation :
    decode ({ State.reset with trace := [0x20#8, 0x00#8, 0x30#8] } : State).trace = .ok (.edge, [0x30#8]) := by decide

theorem test_witness_StoredTraceRunsItsOperations :
    ∀ i ∈ [Instr.clk 1023, .edge, .wdck 1023], i.wellFormed = true := by decide

theorem test_witness_TimerFreeRuns : State.reset.psc < params.prescale := prescale_pos params

theorem test_witness_MaskedTimerOnlySetsItsFlag :
    ({ State.reset with psc := params.prescale - 1 } : State).psc < params.prescale ∧ State.reset.toie = false :=
  ⟨Nat.lt_succ_self _, rfl⟩

theorem test_witness_LongPhaseIsOneFullTimerPeriod :
    let s : State := { pulse with de := false, tcnt := 0 }
    s.phase = some .armedLong ∧ s.tcnt = 0#8 ∧ s.psc = 0 ∧ s.tov = false := by decide

theorem test_witness_TimerTerminatesInIdle : pulse.Inv params ∧ 512 * params.prescale ≤ 512 * params.prescale :=
  ⟨pulse_inv, le_refl _⟩

/-- The last clock of the last tick, the same clock one tick earlier, and a clock that is none. -/
theorem test_witness_PhaseTransitionsOnClock :
    (let s : State := { pulse with psc := params.prescale - 1, tcnt := 255 }
     s.phase = some .armedShort ∧ overflowReady s = false ∧ s.psc = params.prescale - 1 ∧ s.tcnt = 255#8) ∧
    (let s : State := { pulse with psc := params.prescale - 1, tcnt := 254 }
     s.phase = some .armedShort ∧ overflowReady s = false ∧ s.tcnt ≠ 255#8) ∧
    (let s : State := { pulse with psc := params.prescale, tcnt := 255 }
     s.phase = some .armedShort ∧ overflowReady s = false ∧ s.psc ≠ params.prescale - 1) :=
  ⟨⟨rfl, rfl, rfl, rfl⟩, ⟨rfl, rfl, by decide⟩, ⟨rfl, rfl, Nat.succ_ne_self _⟩⟩

/-- Gaps of no clock and of one clock fewer than the pulse lasts. -/
theorem test_witness_RetriggerKeepsDriverEnabled :
    [0, pulseLength pulse.pt * params.prescale - 1] ≠ [] ∧
      ∀ k ∈ [0, pulseLength pulse.pt * params.prescale - 1], k < pulseLength pulse.pt * params.prescale := by
  have h : 0 < pulseLength pulse.pt * params.prescale := Nat.mul_pos (by decide) (prescale_pos params)
  refine ⟨List.cons_ne_nil _ _, fun k hk => ?_⟩
  rcases List.mem_cons.1 hk with rfl | hk
  · exact h
  · rw [List.mem_singleton.1 hk]; omega

/-- A conversion and a service pass that change `PT` between two edges. -/
theorem test_witness_RetriggerAmongOtherOperations :
    [[Instr.adcc 0x380#10, .svc], [.rise]] ≠ [] ∧
      gapsWithinPulse params [[Instr.adcc 0x380#10, .svc], [.rise]] State.reset ∧
      runOps [.edge, .adcc 0x380#10, .svc, .edge, .rise] State.reset =
        .next { pulse with pt := 162, tcnt := 162, adsample := 0x380#10 } := by
  refine ⟨List.cons_ne_nil _ _, ⟨by simp, trivial, Nat.mul_pos (by decide) (prescale_pos params), fun t h => ?_⟩, rfl⟩
  cases h
  exact ⟨by simp, trivial, Nat.mul_pos (by decide) (prescale_pos params), fun _ _ => trivial⟩

theorem test_witness_AdccLatchesSample : State.reset.adbusy = true := by decide

theorem test_witness_AdccNeedsConversionInProgress :
    ({ State.reset with adbusy := false } : State).adbusy = false ∧
      exec (.adcc 0#10) State.reset = .next (latchSample 0#10 State.reset) := ⟨rfl, rfl⟩

theorem test_witness_ReloadValueInverts : (1#8 : Byte) ≠ 0 ∧ (255#8 : Byte) ≠ 0 := by decide

/-- Awake with a sample waiting, and without. -/
theorem test_witness_ServicePassResult :
    pulse.awake = true ∧ pulse.adif = false ∧
      (latchSample 0#10 State.reset).awake = true ∧ (latchSample 0#10 State.reset).adif = true := by decide

theorem test_witness_SvcNeedsAwakeSupervisor :
    State.reset.awake = false ∧ exec .svc pulse = .next { pulse with awake := false } := ⟨rfl, rfl⟩

theorem test_witness_EveryIndexGivesItsPulse : pulse.adbusy = true := by decide

theorem test_witness_EdgeRacesCalibration : pulse.adbusy = true := by decide

theorem test_witness_LatestConversionWins : pulse.adbusy = true := by decide

theorem test_witness_NoConversionKeepsDefault :
    (∀ i ∈ [Instr.edge], ∀ v : Sample, i ≠ .adcc v) ∧ State.reset.adif = false ∧ State.reset.pt = 250#8 ∧
      runOps [.edge] State.reset = .next pulse := ⟨by simp, rfl, rfl, rfl⟩

/-- With no conversion, and with one whose sample no service pass has taken. -/
theorem test_witness_DefaultPulseBeforeCalibration :
    (∀ i ∈ [Instr.edge], ∀ v : Sample, i ≠ .adcc v) ∧ (∀ i ∈ ([] : List Instr), i ≠ .svc) ∧
      (∀ i ∈ [Instr.adcc 0x380#10], i ≠ .svc) ∧ runOps ([.edge] ++ []) State.reset = .next pulse ∧
      runOps ([.edge] ++ [.adcc 0x380#10]) State.reset = .next (latchSample 0x380#10 pulse) :=
  ⟨by simp, by simp, by simp, rfl, rfl⟩

theorem test_witness_WatchdogCountResult :
    State.reset.wdc < params.wRst ∧ ({ pulse with wdc := params.wRst - 1 } : State).wdc < params.wRst :=
  ⟨Nat.succ_pos _, Nat.lt_succ_self _⟩

theorem test_witness_WatchdogResetIsFullReset :
    ({ pulse with wdc := params.wRst - 1 } : State).wdc + 1 = params.wRst := rfl

theorem test_witness_SupervisorIsNotStarved :
    State.reset.wdc = 0 ∧ (∀ i ∈ [Instr.edge, .wdck params.wInt], i ≠ .svc ∧ i ≠ .rst) ∧
      params.wInt ≤ watchdogClocksOf [.edge, .wdck params.wInt] ∧
      watchdogClocksOf [.edge, .wdck params.wInt] < params.wRst ∧
      runOps [.edge, .wdck params.wInt] State.reset = .next (wdSteps params params.wInt pulse) :=
  ⟨rfl, by simp, le_refl _, wInt_lt_wRst params, rfl⟩

theorem test_witness_ServicedWatchdogChangesNothing :
    State.reset.wdc = 0 ∧ State.reset.adif = false ∧ State.reset.awake = false ∧ params.wInt ≤ params.wInt ∧
      params.wInt < params.wRst :=
  ⟨rfl, rfl, rfl, le_refl _, wInt_lt_wRst params⟩

theorem test_witness_StepKeepsInvariant :
    ({ pulse with trace := [0x30#8, 0x00#8] } : State).Inv params ∧
      step { pulse with trace := [0x30#8, 0x00#8] } = .next pulse :=
  ⟨⟨pulse_inv.1, pulse_inv.2, pulse_inv.3, pulse_inv.4, pulse_inv.5, pulse_inv.6, pulse_inv.7, pulse_inv.8, pulse_inv.9⟩,
    rfl⟩

theorem test_witness_DriverEnabledOnlyWithLedLit :
    pulse.contained = true ∧ step { pulse with trace := [0x30#8, 0x00#8] } = .next pulse ∧
      runOps [.edge] State.reset = .next pulse := ⟨rfl, rfl, rfl⟩

theorem test_witness_DispatchAfterAnyOperationIsIdle : pulse.Inv params ∧ exec .rise pulse = .next pulse :=
  ⟨pulse_inv, rfl⟩

/-- Pending and enabled; masked; absent. -/
theorem test_witness_DispatchTakesEnabledOverflow :
    (let s : State := { pulse with tov := true }
     IrqSource.overflow.pending s = true ∧ IrqSource.overflow.enabled s = true) ∧
    IrqSource.overflow.enabled { State.reset with tov := true } = false ∧
    IrqSource.overflow.pending pulse = false := by decide

theorem test_witness_AccessMatrixWrites :
    exec .edge State.reset = .next pulse ∧ mayWrite .edge .pt = false ∧ expires params State.reset .edge = false :=
  ⟨rfl, rfl, rfl⟩

theorem test_witness_OnlyEdgeAssertsOutputs :
    exec .edge State.reset = .next pulse ∧ State.reset.de = false ∧ pulse.de = true ∧ State.reset.ledn = true ∧
      pulse.ledn = false := ⟨rfl, rfl, rfl, rfl, rfl⟩

theorem test_witness_OnlyServiceAndResetChangePt :
    exec .rst { pulse with pt := 255 } = .next State.reset ∧ State.reset.pt ≠ ({ pulse with pt := 255 } : State).pt :=
  ⟨rfl, by decide⟩

theorem test_witness_NoEdgeNoPulse :
    (∀ i ∈ [Instr.rise], i ≠ .edge) ∧ State.reset.phase = some .idle ∧
      runOps [.rise] State.reset = .next State.reset := ⟨by simp, rfl, rfl⟩

/-- A service pass on the last watchdog clock but one before the reset, and as many watchdog clocks again. -/
theorem test_witness_TimingFollowsClocksAlone :
    (∀ i ∈ [Instr.svc, .clk 3, .wdck (params.wRst - 1)], i ≠ .edge ∧ i ≠ .rst) ∧
      watchdogHolds params (params.wRst - 1) [.svc, .clk 3, .wdck (params.wRst - 1)] ∧
      runOps [.svc, .clk 3, .wdck (params.wRst - 1)] { pulse with wdc := params.wRst - 1 } =
        .next (wdSteps params (params.wRst - 1) (clkSteps params 3 { pulse with awake := false })) :=
  ⟨by simp, ⟨by have := wInt_lt_wRst params; omega, trivial⟩, rfl⟩

theorem test_witness_SleepStopsOnlySupervisor : Instr.edge ≠ .svc ∧ exec .edge State.reset = .next pulse :=
  ⟨by decide, rfl⟩

theorem test_witness_MaskedTimerAndStaleSampleUnobservable :
    Indistinct State.reset { State.reset with tcnt := 7, adsample := 9 } ∧
      runOps [.edge] State.reset = .next pulse ∧ runOps [.svc] State.reset = .refused .supervisorAsleep :=
  ⟨⟨rfl, rfl, rfl, rfl, rfl, rfl, rfl, rfl, rfl, by decide, by decide⟩, rfl, rfl⟩

theorem test_witness_BlockIsNeverStuck : pulse.Inv params := pulse_inv

theorem test_witness_PseudoOperationsExpand :
    0 * params.prescale ≤ maxCount ∧ State.reset.adbusy = true := ⟨by simp, rfl⟩

theorem test_witness_TextSpellsWellFormedOperations :
    readTrace vec ['W', 'D', 'C', 'K', ' ', '0', 'x', '3', 'F', 'f'] = .ok [.wdck 1023] ∧
      readTrace vec ['C', 'L', 'K', ' ', '1', '0', '2', '4'] = .error .operandOutOfRange := by decide

end Sys2Proof.Tests
end

