-- ==== Sys2Proof/Proofs/Scope.lean ====
section
/-! PROOFS. The scope of the block (spec/00_scope.md): a stored trace and its operations, the operations that are always
enabled, and the clocks as the only input of the timing elements. -/

namespace Sys2Proof.Machine

open Sys2Proof.Config

/-! ### The word of an operation decodes to the operation -/

theorem decodeWord_encodeWord {i : Instr} (h : i.wellFormed = true) : decodeWord (encodeWord i) = .ok i := by
  cases i with
  | clk n =>
    have hn : n ≤ maxCount := by simpa [Instr.wellFormed] using h
    simpa [decodeWord, encodeWord] using Laws.count_toNat hn
  | wdck n =>
    have hn : n ≤ maxCount := by simpa [Instr.wellFormed] using h
    simpa [decodeWord, encodeWord] using Laws.count_toNat hn
  | adcc v => simp [decodeWord, encodeWord]
  | edge => decide
  | rise => decide
  | svc => decide
  | rst => decide

theorem decode_encode_append {i : Instr} (h : i.wellFormed = true) (rest : List Byte) :
    decode (encode i ++ rest) = .ok (i, rest) := by
  rw [encode, decode_wordBytes, decodeWord_encodeWord h]; rfl

theorem encodeTrace_cons (i : Instr) (is : List Instr) : encodeTrace (i :: is) = encode i ++ encodeTrace is :=
  List.flatMap_cons

/-! ### The step and the operation it decodes -/

theorem step_of_decode {s : State} {i : Instr} {rest : List Byte} (h : decode s.trace = .ok (i, rest)) :
    step s = exec i { s with trace := rest } := by
  simp [step, fetch, h]

theorem step_encode_append {i : Instr} (h : i.wellFormed = true) (rest : List Byte) (s : State) :
    step { s with trace := encode i ++ rest } = exec i { s with trace := rest } :=
  step_of_decode (decode_encode_append h rest)

/-! ### No operation reads or writes the trace

Each procedure commutes with putting another trace into the state. -/

theorem hOvf_withBytes (s : State) (bs : List Byte) : hOvf { s with trace := bs } = { hOvf s with trace := bs } := by
  cases h : s.de <;> simp [hOvf, h]

theorem dispatch_withBytes (s : State) (bs : List Byte) :
    dispatch { s with trace := bs } = { dispatch s with trace := bs } := by
  rcases dispatch_cases s with ⟨hr, hd⟩ | ⟨hr, hd⟩ <;> rw [hd]
  · rw [← hOvf_withBytes]; exact if_pos hr
  · exact dispatch_of_not_ready hr

theorem countTick_withBytes (s : State) (bs : List Byte) :
    countTick { s with trace := bs } = { countTick s with trace := bs } := by
  cases h : timerWraps s.tcnt <;> simp [countTick, h]

theorem tick_withBytes (s : State) (bs : List Byte) : tick { s with trace := bs } = { tick s with trace := bs } := by
  rw [tick, countTick_withBytes, dispatch_withBytes]; rfl

theorem clk1_withBytes (p : Params) (s : State) (bs : List Byte) :
    clk1 p { s with trace := bs } = { clk1 p s with trace := bs } := by
  by_cases h : s.psc = p.prescale - 1
  · simpa [clk1, h] using tick_withBytes { s with psc := 0 } bs
  · simp [clk1, h]

theorem clkSteps_withBytes (p : Params) (n : Nat) (s : State) (bs : List Byte) :
    clkSteps p n { s with trace := bs } = { clkSteps p n s with trace := bs } := by
  induction n generalizing s with
  | zero => rfl
  | succ n ih => rw [clkSteps_succ, clk1_withBytes, ih, clkSteps_succ]

theorem wd1_withBytes (p : Params) (s : State) (bs : List Byte) :
    wd1 p { s with trace := bs } = { wd1 p s with trace := bs } := by
  rw [wd1, wd1]
  by_cases hrst : s.wdc + 1 = p.wRst
  · rw [if_pos hrst, if_pos hrst]; rfl
  · by_cases hint : s.wdc + 1 = p.wInt
    · rw [if_neg hrst, if_neg hrst, if_pos hint, if_pos hint]; rfl
    · rw [if_neg hrst, if_neg hrst, if_neg hint, if_neg hint]

theorem wdSteps_withBytes (p : Params) (n : Nat) (s : State) (bs : List Byte) :
    wdSteps p n { s with trace := bs } = { wdSteps p n s with trace := bs } := by
  induction n generalizing s with
  | zero => rfl
  | succ n ih => rw [wdSteps_succ, wd1_withBytes, ih, wdSteps_succ]

theorem servicePass_withBytes (s : State) (bs : List Byte) :
    servicePass { s with trace := bs } = { servicePass s with trace := bs } := by
  cases h : s.adif <;> simp [servicePass, calPoll, h]

/-- An operation does the same whatever trace follows it. -/
theorem exec_next_withBytes {i : Instr} {s t : State} (h : exec i s = .next t) (bs : List Byte) :
    exec i { s with trace := bs } = .next { t with trace := bs } := by
  rcases exec_next_cases h with ⟨n, rfl, rfl⟩ | ⟨rfl, rfl⟩ | ⟨rfl, rfl⟩ | ⟨v, rfl, hbusy, rfl⟩ | ⟨n, rfl, rfl⟩ |
    ⟨rfl, hawake, rfl⟩ | ⟨rfl, rfl⟩
  · rw [exec_clk, clkSteps_withBytes]
  · exact exec_edge _
  · rfl
  · exact exec_adcc_next.2 ⟨hbusy, rfl⟩
  · rw [exec_wdck, wdSteps_withBytes]
  · exact exec_svc_next.2 ⟨hawake, (servicePass_withBytes s bs).symm⟩
  · rfl

theorem exec_keeps_trace {i : Instr} {s t : State} (h : exec i s = .next t) : t.trace = s.trace := by
  have hsame : exec i s = .next { t with trace := s.trace } := exec_next_withBytes h s.trace
  have ht : t = { t with trace := s.trace } := Host.Outcome.next.inj (h.symm.trans hsame)
  rw [ht]

theorem exec_adcc_refused {v : Sample} {s : State} {r : Refusal} :
    exec (.adcc v) s = .refused r ↔ s.adbusy = false ∧ r = .noConversion := by
  cases h : s.adbusy <;> simp [exec, execAdcc, h, eq_comm]

theorem exec_svc_refused {s : State} {r : Refusal} :
    exec .svc s = .refused r ↔ s.awake = false ∧ r = .supervisorAsleep := by
  cases h : s.awake <;> simp [exec, execSvc, h, eq_comm]

/-- An operation is refused whatever trace follows it. -/
theorem exec_refused_withBytes {i : Instr} {s : State} {r : Refusal} (h : exec i s = .refused r) (bs : List Byte) :
    exec i { s with trace := bs } = .refused r := by
  cases i with
  | adcc v =>
    obtain ⟨hbusy, rfl⟩ := exec_adcc_refused.1 h
    exact exec_adcc_refused.2 ⟨hbusy, rfl⟩
  | svc =>
    obtain ⟨hawake, rfl⟩ := exec_svc_refused.1 h
    exact exec_svc_refused.2 ⟨hawake, rfl⟩
  | clk n => cases h
  | edge => cases h
  | rise => cases h
  | wdck n => cases h
  | rst => cases h

/-! ### A stored trace and its operations -/

theorem runOps_cons_refused {i : Instr} {is : List Instr} {s : State} {r : Refusal} (h : exec i s = .refused r) :
    runOps (i :: is) s = .refused r := by
  simp [runOps, h]

theorem runSteps_encodeTrace (is : List Instr) (rest : List Byte) (s : State) (hwf : ∀ i ∈ is, i.wellFormed = true) :
    runSteps is.length { s with trace := encodeTrace is ++ rest } = runOps is { s with trace := rest } := by
  induction is generalizing s with
  | nil => rfl
  | cons i is ih =>
    obtain ⟨hi, his⟩ := List.forall_mem_cons.1 hwf
    have hstep := step_encode_append hi (encodeTrace is ++ rest) s
    rw [encodeTrace_cons, List.append_assoc, List.length_cons]
    cases hexec : exec i { s with trace := rest } with
    | next t =>
      have htrace : t.trace = rest := exec_keeps_trace hexec
      have hafter := exec_next_withBytes hexec (encodeTrace is ++ rest)
      rw [runSteps_succ_next (hstep.trans hafter), runOps_cons hexec, ih t his, ← htrace]
    | refused r =>
      have hafter := exec_refused_withBytes hexec (encodeTrace is ++ rest)
      rw [runSteps_succ_refused (hstep.trans hafter), runOps_cons_refused hexec]
    | fault r => cases r

/-! ### Which operations are enabled -/

theorem exec_adcc_of_adbusy {s : State} (v : Sample) (h : s.adbusy = true) : exec (.adcc v) s = .next (latchSample v s) :=
  exec_adcc_next.2 ⟨h, rfl⟩

theorem exec_svc_of_awake {s : State} (h : s.awake = true) : exec .svc s = .next (servicePass s) :=
  exec_svc_next.2 ⟨h, rfl⟩

/-- Under the invariant a conversion is in progress or its sample keeps the supervisor awake (R22, R112, R137). -/
theorem adbusy_or_awake {p : Params} {s : State} (h : s.Inv p) : s.adbusy = true ∨ s.awake = true := by
  cases hbusy : s.adbusy with
  | true => exact .inl rfl
  | false => exact .inr (h.sample_awake (by rw [h.adc_exclusive, hbusy]; rfl))

/-! ### The timing elements: what a system clock makes of them -/

theorem State.timing_eq_iff {s t : State} :
    s.timing = t.timing ↔
      s.tcnt = t.tcnt ∧ s.de = t.de ∧ s.ledn = t.ledn ∧ s.toie = t.toie ∧ s.tov = t.tov ∧ s.psc = t.psc :=
  iff_of_eq (Timing.mk.injEq ..)

theorem hOvf_timing_congr {s t : State} (h : s.timing = t.timing) : (hOvf s).timing = (hOvf t).timing := by
  obtain ⟨htcnt, hde, hledn, htoie, -, hpsc⟩ := State.timing_eq_iff.1 h
  cases hd : t.de
  · rw [hOvf_long (hde.trans hd), hOvf_long hd]; simp [State.timing, *]
  · rw [hOvf_short (hde.trans hd), hOvf_short hd]; simp [State.timing, *]

theorem dispatch_timing_congr {s t : State} (h : s.timing = t.timing) : (dispatch s).timing = (dispatch t).timing := by
  obtain ⟨-, -, -, htoie, htov, -⟩ := State.timing_eq_iff.1 h
  have hready : overflowReady s = overflowReady t := by rw [overflowReady, overflowReady, htoie, htov]
  rw [dispatch, dispatch, hready]
  split
  · exact hOvf_timing_congr h
  · exact h

theorem countTick_timing_congr {s t : State} (h : s.timing = t.timing) :
    (countTick s).timing = (countTick t).timing := by
  obtain ⟨htcnt, hde, hledn, htoie, htov, hpsc⟩ := State.timing_eq_iff.1 h
  rw [countTick, countTick, htcnt]
  split <;> simp [State.timing, *]

theorem clk1_timing_congr (p : Params) {s t : State} (h : s.timing = t.timing) :
    (clk1 p s).timing = (clk1 p t).timing := by
  obtain ⟨htcnt, hde, hledn, htoie, htov, hpsc⟩ := State.timing_eq_iff.1 h
  rw [clk1, clk1, hpsc]
  split
  · exact dispatch_timing_congr (countTick_timing_congr (by simp [State.timing, *]))
  · simp [State.timing, *]

/-- What clocks make of the timing elements depends on the timing elements alone. -/
theorem clkSteps_timing_congr (p : Params) (n : Nat) {s t : State} (h : s.timing = t.timing) :
    (clkSteps p n s).timing = (clkSteps p n t).timing := by
  induction n generalizing s t with
  | zero => exact h
  | succ n ih => exact ih (clk1_timing_congr p h)

/-! ### The timing elements: what leaves them alone -/

theorem clk1_wdc (p : Params) (s : State) : (clk1 p s).wdc = s.wdc := by
  rcases clk1_cases p s with ⟨_, h⟩ | ⟨_, _, _, h⟩ | ⟨_, _, _, h⟩ | ⟨_, _, _, _, h⟩ | ⟨_, _, _, _, h⟩ <;> rw [h]

theorem clkSteps_wdc (p : Params) (n : Nat) (s : State) : (clkSteps p n s).wdc = s.wdc :=
  clkSteps_preserve p (P := fun t => t.wdc = s.wdc) (fun t ht => (clk1_wdc p t).trans ht) n rfl

theorem servicePass_wdc (s : State) : (servicePass s).wdc = 0 := by
  rcases servicePass_cases s with ⟨_, h⟩ | ⟨_, h⟩ <;> rw [h]

theorem servicePass_timing (s : State) : (servicePass s).timing = s.timing := by
  rcases servicePass_cases s with ⟨_, h⟩ | ⟨_, h⟩ <;> rw [h] <;> rfl

/-- Watchdog clocks that stay short of `W_RST` count, and can wake the supervisor, and no more (R141). -/
theorem wdSteps_of_lt {p : Params} {n : Nat} {s : State} (h : s.wdc + n < p.wRst) :
    ∃ b : Bool, wdSteps p n s = { s with wdc := s.wdc + n, awake := b } := by
  induction n generalizing s with
  | zero => exact ⟨s.awake, rfl⟩
  | succ n ih =>
    have hone : ∃ b : Bool, wd1 p s = { s with wdc := s.wdc + 1, awake := b } := by
      rcases wd1_cases p s with ⟨hrst, _⟩ | ⟨_, h1⟩ | ⟨_, _, h1⟩
      · omega
      · exact ⟨true, h1⟩
      · exact ⟨s.awake, h1⟩
    obtain ⟨b, hb⟩ := hone
    obtain ⟨c, hc⟩ := ih (s := { s with wdc := s.wdc + 1, awake := b }) (by show s.wdc + 1 + n < p.wRst; omega)
    refine ⟨c, ?_⟩
    rw [wdSteps_succ, hb, hc]
    simp [Nat.add_assoc, Nat.add_comm 1 n]

/-- From two states with the same timing elements, operations without `EDGE` and `RST` whose watchdog does not expire and as
many clocks alone lead to the same timing elements. -/
theorem runOps_timing {is : List Instr} {s s' t : State} (hkind : ∀ i ∈ is, i ≠ .edge ∧ i ≠ .rst)
    (hwd : watchdogHolds params s.wdc is) (hrun : runOps is s = .next t) (hs : s.timing = s'.timing) :
    t.timing = (clkSteps params (clocksOf is) s').timing := by
  induction is generalizing s s' with
  | nil => cases hrun; exact hs
  | cons i is ih =>
    obtain ⟨⟨hedge, hrst⟩, hrest⟩ := List.forall_mem_cons.1 hkind
    obtain ⟨u, hexec, hrun⟩ := runOps_cons_next.1 hrun
    cases i with
    | clk n =>
      cases hexec
      rw [clocksOf, clkSteps_add]
      exact ih hrest (by rw [clkSteps_wdc]; exact hwd) hrun (clkSteps_timing_congr params n hs)
    | edge => exact absurd rfl hedge
    | rise => cases hexec; exact ih hrest hwd hrun hs
    | adcc v =>
      obtain ⟨-, rfl⟩ := exec_adcc_next.1 hexec
      exact ih (s := latchSample v s) hrest hwd hrun hs
    | wdck n =>
      cases hexec
      obtain ⟨hlt, hwd⟩ := hwd
      obtain ⟨b, hb⟩ := wdSteps_of_lt hlt
      rw [hb] at hrun
      exact ih hrest hwd hrun hs
    | svc =>
      obtain ⟨-, rfl⟩ := exec_svc_next.1 hexec
      exact ih hrest (by rw [servicePass_wdc]; exact hwd) hrun ((servicePass_timing s).trans hs)
    | rst => exact absurd rfl hrst

/-! ### The statements -/

/-- Settles O6. -/
theorem stepRunsDecodedOperation : Obligations.StepRunsDecodedOperation :=
  fun _ _ _ h => step_of_decode h

/-- Settles O8, by induction on the operations: a step takes one word off the trace and applies its operation, which neither
reads nor writes the bytes behind it. -/
theorem storedTraceRunsItsOperations : Obligations.StoredTraceRunsItsOperations :=
  runSteps_encodeTrace

/-- Settles O49, as the case of `runOps_timing` in which both runs begin in one state. -/
theorem timingFollowsClocksAlone : Obligations.TimingFollowsClocksAlone :=
  fun _ _ _ hkind hwd hrun => ⟨_, exec_clk _ _, runOps_timing hkind hwd hrun rfl⟩

/-- Settles O53: under the invariant a conversion is in progress, or the supervisor is awake. -/
theorem blockIsNeverStuck : Obligations.BlockIsNeverStuck :=
  fun s n v =>
    ⟨⟨_, exec_clk n s⟩, ⟨_, exec_wdck n s⟩, ⟨_, exec_edge s⟩, ⟨_, exec_rise s⟩, ⟨_, exec_rst s⟩, fun hinv =>
      (adbusy_or_awake hinv).imp (fun hbusy => ⟨_, exec_adcc_of_adbusy v hbusy⟩)
        (fun hawake => ⟨_, exec_svc_of_awake hawake⟩)⟩

end Sys2Proof.Machine
end

section
/-! PROOFS. The state of the block (spec/10_state.md): its phase, what every step keeps, what an operation leaves alone, where
the clocks put the timer, and the elements that nothing reads before writing them. -/

namespace Sys2Proof.Machine

open Sys2Proof.Config

/-! ### The phase -/

theorem phase_eq_idle_iff (s : State) : s.phase = some .idle ↔ s.de = false ∧ s.ledn = true ∧ s.toie = false := by
  cases hd : s.de <;> cases hl : s.ledn <;> cases hi : s.toie <;> simp [State.phase, hd, hl, hi]

theorem phase_eq_armedShort_iff (s : State) :
    s.phase = some .armedShort ↔ s.de = true ∧ s.ledn = false ∧ s.toie = true := by
  cases hd : s.de <;> cases hl : s.ledn <;> cases hi : s.toie <;> simp [State.phase, hd, hl, hi]

theorem phase_eq_armedLong_iff (s : State) :
    s.phase = some .armedLong ↔ s.de = false ∧ s.ledn = false ∧ s.toie = true := by
  cases hd : s.de <;> cases hl : s.ledn <;> cases hi : s.toie <;> simp [State.phase, hd, hl, hi]

/-- The LED is lit in a legal phase exactly while the interrupt is enabled, and the driver is enabled only then (R32). -/
theorem phase_ne_none_iff (s : State) :
    s.phase ≠ none ↔ s.ledn = !s.toie ∧ (s.de = true → s.toie = true) := by
  cases hd : s.de <;> cases hl : s.ledn <;> cases hi : s.toie <;> simp [State.phase, hd, hl, hi]

/-! ### The invariant and what keeps it -/

theorem reset_inv (p : Params) : State.reset.Inv p where
  pt_legal := ⟨3, rfl⟩
  psc_lt := prescale_pos p
  wdc_lt := (wInt_pos p).trans (wInt_lt_wRst p)
  phase_legal := by decide
  short_count := nofun
  no_untaken := rfl
  adc_exclusive := rfl
  sample_awake := nofun
  watchdog_awake := fun h => absurd (wInt_pos p) (Nat.not_lt.2 h)

/-- The invariant says nothing of the trace. -/
theorem State.Inv.withBytes {p : Params} {s : State} (h : s.Inv p) (bs : List Byte) :
    ({ s with trace := bs } : State).Inv p :=
  { h with }

theorem State.Inv.toie_of_de {p : Params} {s : State} (h : s.Inv p) (hde : s.de = true) : s.toie = true :=
  ((phase_ne_none_iff s).1 h.phase_legal).2 hde

theorem State.Inv.ledn_eq {p : Params} {s : State} (h : s.Inv p) : s.ledn = !s.toie :=
  ((phase_ne_none_iff s).1 h.phase_legal).1

theorem State.Inv.pt_ge {p : Params} {s : State} (h : s.Inv p) : 162 ≤ s.pt.toNat := by
  obtain ⟨idx, hpt⟩ := h.pt_legal
  rw [hpt]
  exact reload_memRead_ge idx

theorem doReset_inv (p : Params) (s : State) : (doReset s).Inv p :=
  (reset_inv p).withBytes s.trace

/-- `H_EDGE` leads to `ARMED_SHORT` with a legal `PT` loaded. -/
theorem hEdge_inv {p : Params} {s : State} (h : s.Inv p) : (hEdge s).Inv p :=
  { h with
    psc_lt := prescale_pos p
    phase_legal := (phase_ne_none_iff _).2 ⟨rfl, fun _ => rfl⟩
    short_count := fun _ => h.pt_ge
    no_untaken := rfl
    sample_awake := fun _ => rfl
    watchdog_awake := fun _ => rfl }

theorem latchSample_inv {p : Params} {s : State} (v : Sample) (h : s.Inv p) : (latchSample v s).Inv p :=
  { h with
    adc_exclusive := rfl
    sample_awake := fun _ => rfl
    watchdog_awake := fun _ => rfl }

/-- A service pass lets the supervisor sleep once no sample waits and the watchdog counts from 0. -/
theorem servicePass_inv {p : Params} {s : State} (h : s.Inv p) : (servicePass s).Inv p := by
  have hwdc : 0 < p.wRst := (wInt_pos p).trans (wInt_lt_wRst p)
  have hwake : p.wInt ≤ 0 → false = true := fun hle => absurd (wInt_pos p) (Nat.not_lt.2 hle)
  rcases servicePass_cases s with ⟨hadif, hpass⟩ | ⟨hadif, hpass⟩ <;> rw [hpass]
  · exact { h with
      pt_legal := ⟨_, rfl⟩, wdc_lt := hwdc, adc_exclusive := rfl, sample_awake := nofun, watchdog_awake := hwake }
  · exact { h with
      wdc_lt := hwdc, sample_awake := fun hi => absurd hi (by simp [hadif]), watchdog_awake := hwake }

/-- A watchdog clock resets at `W_RST`, wakes at `W_INT`, and beyond `W_INT` finds the supervisor awake. -/
theorem wd1_inv {p : Params} {s : State} (h : s.Inv p) : (wd1 p s).Inv p := by
  have hlt := h.wdc_lt
  rcases wd1_cases p s with ⟨-, hwd⟩ | ⟨hint, hwd⟩ | ⟨hrst, hint, hwd⟩ <;> rw [hwd]
  · exact doReset_inv p s
  · have := wInt_lt_wRst p
    exact { h with
      wdc_lt := by show s.wdc + 1 < p.wRst; omega
      sample_awake := fun _ => rfl
      watchdog_awake := fun _ => rfl }
  · exact { h with
      wdc_lt := by show s.wdc + 1 < p.wRst; omega
      watchdog_awake := fun hle => h.watchdog_awake (by have : p.wInt ≤ s.wdc + 1 := hle; omega) }

theorem toNat_add_one_of_ne {c : Byte} (h : c ≠ 255#8) : (c + 1#8).toNat = c.toNat + 1 := by
  bv_omega

/-- One system clock keeps the invariant. Without an overflow the counter rises, a masked overflow happens in `IDLE` only, and
a taken one goes on to the next phase of R96 and clears its flag. -/
theorem clk1_inv {p : Params} {s : State} (h : s.Inv p) : (clk1 p s).Inv p := by
  have hpsc := h.psc_lt
  rcases clk1_cases p s with ⟨hcount, hclk⟩ | ⟨-, hwrap, -, hclk⟩ | ⟨-, -, hmask, hclk⟩ | ⟨-, -, hen, -, hclk⟩ |
    ⟨-, -, -, hde, hclk⟩ <;> rw [hclk]
  case inl => exact { h with psc_lt := by show s.psc + 1 < p.prescale; omega }
  case inr.inl =>
    exact { h with
      psc_lt := prescale_pos p
      short_count := fun hde => by rw [toNat_add_one_of_ne hwrap]; exact Nat.le_succ_of_le (h.short_count hde) }
  case inr.inr.inl =>
    exact { h with
      psc_lt := prescale_pos p
      short_count := fun hde => absurd (h.toie_of_de hde) (by simp [hmask])
      no_untaken := by simp [overflowReady, hmask] }
  case inr.inr.inr.inl =>
    exact { h with
      psc_lt := prescale_pos p
      phase_legal := (phase_ne_none_iff _).2 ⟨h.ledn_eq, nofun⟩
      short_count := nofun
      no_untaken := rfl
      sample_awake := fun _ => rfl
      watchdog_awake := fun _ => rfl }
  case inr.inr.inr.inr =>
    exact { h with
      psc_lt := prescale_pos p
      phase_legal := (phase_ne_none_iff _).2 ⟨rfl, fun hd => absurd hd (by simp [hde])⟩
      short_count := fun hd => absurd hd (by simp [hde])
      no_untaken := rfl
      sample_awake := fun _ => rfl
      watchdog_awake := fun _ => rfl }

theorem exec_inv {i : Instr} {s t : State} (h : s.Inv params) (hexec : exec i s = .next t) : t.Inv params := by
  rcases exec_next_cases hexec with ⟨n, rfl, rfl⟩ | ⟨rfl, rfl⟩ | ⟨rfl, rfl⟩ | ⟨v, rfl, -, rfl⟩ | ⟨n, rfl, rfl⟩ |
    ⟨rfl, -, rfl⟩ | ⟨rfl, rfl⟩
  · exact clkSteps_preserve params (P := State.Inv params) (fun _ => clk1_inv) n h
  · exact hEdge_inv h
  · exact h
  · exact latchSample_inv v h
  · exact wdSteps_preserve params (P := State.Inv params) (fun _ => wd1_inv) n h
  · exact servicePass_inv h
  · exact doReset_inv params s

/-! ### What clocks leave alone -/

/-- What clocks that lead from `s` to `t` can have changed (R25, R94): the timer, and of the outputs, the interrupt enable and
`AWAKE` one direction each. -/
structure ClockFrame (s t : State) : Prop where
  pt : t.pt = s.pt
  adsample : t.adsample = s.adsample
  adif : t.adif = s.adif
  adbusy : t.adbusy = s.adbusy
  wdc : t.wdc = s.wdc
  trace : t.trace = s.trace
  de_falls : t.de = true → s.de = true
  ledn_rises : s.ledn = true → t.ledn = true
  toie_falls : t.toie = true → s.toie = true
  awake_rises : s.awake = true → t.awake = true

theorem ClockFrame.refl (s : State) : ClockFrame s s := ⟨rfl, rfl, rfl, rfl, rfl, rfl, id, id, id, id⟩

theorem clk1_frame (p : Params) {s t : State} (h : ClockFrame s t) : ClockFrame s (clk1 p t) := by
  rcases clk1_cases p t with ⟨-, hclk⟩ | ⟨-, -, -, hclk⟩ | ⟨-, -, -, hclk⟩ | ⟨-, -, -, -, hclk⟩ | ⟨-, -, -, -, hclk⟩ <;>
    rw [hclk]
  case inl => exact { h with }
  case inr.inl => exact { h with }
  case inr.inr.inl => exact { h with }
  case inr.inr.inr.inl => exact { h with de_falls := nofun, awake_rises := fun _ => rfl }
  case inr.inr.inr.inr =>
    exact { h with ledn_rises := fun _ => rfl, toie_falls := nofun, awake_rises := fun _ => rfl }

theorem clkSteps_frame (p : Params) (n : Nat) (s : State) : ClockFrame s (clkSteps p n s) :=
  clkSteps_preserve p (P := ClockFrame s) (fun _ => clk1_frame p) n (ClockFrame.refl s)

/-! ### The write half of the access matrix -/

theorem expires_wdck_eq_false_iff {p : Params} {s : State} {n : Nat} :
    expires p s (.wdck n) = false ↔ s.wdc + n < p.wRst := by
  simp [expires]

/-- What an operation may not write it leaves alone, one operation of R25's matrix after another. -/
theorem exec_same_of_not_mayWrite {i : Instr} {e : Element} {s t : State} (hexec : exec i s = .next t)
    (hw : mayWrite i e = false) (hx : expires params s i = false) : e.same s t := by
  rcases exec_next_cases hexec with ⟨n, rfl, rfl⟩ | ⟨rfl, rfl⟩ | ⟨rfl, rfl⟩ | ⟨v, rfl, -, rfl⟩ | ⟨n, rfl, rfl⟩ |
    ⟨rfl, -, rfl⟩ | ⟨rfl, rfl⟩
  case inr.inr.inr.inr.inr.inr => cases hw
  all_goals revert hw
  · have hframe := clkSteps_frame params n s
    cases e <;> simp [mayWrite, Element.same, hframe.pt, hframe.adsample, hframe.adif, hframe.adbusy, hframe.wdc]
  · cases e <;> simp [mayWrite, Element.same]
  · cases e <;> simp [Element.same]
  · cases e <;> simp [mayWrite, Element.same]
  · obtain ⟨b, hwd⟩ := wdSteps_of_lt (expires_wdck_eq_false_iff.1 hx)
    rw [hwd]
    cases e <;> simp [mayWrite, Element.same]
  · rcases servicePass_cases s with ⟨-, hpass⟩ | ⟨-, hpass⟩ <;> rw [hpass] <;>
      cases e <;> simp [mayWrite, Element.same]

theorem servicePass_pt_of_not_adif {s : State} (h : s.adif = false) : (servicePass s).pt = s.pt := by
  rw [servicePass, calPoll, if_neg (by simp [h])]

/-- The column of `PT` in R25's matrix. -/
theorem eq_svc_or_rst_of_mayWrite_pt {i : Instr} (h : mayWrite i .pt = true) : i = .svc ∨ i = .rst := by
  cases i <;> simp [mayWrite] at h ⊢

/-! ### Where the clocks put the timer -/

theorem clkSteps_succ_last (p : Params) (n : Nat) (s : State) : clkSteps p (n + 1) s = clk1 p (clkSteps p n s) :=
  clkSteps_add p n 1 s

theorem clk1_psc {p : Params} {s : State} (h : s.psc < p.prescale) : (clk1 p s).psc = (s.psc + 1) % p.prescale := by
  rcases clk1_cases p s with ⟨hne, hclk⟩ | ⟨heq, -, -, hclk⟩ | ⟨heq, -, -, hclk⟩ | ⟨heq, -, -, -, hclk⟩ |
    ⟨heq, -, -, -, hclk⟩ <;> rw [hclk]
  case inl => exact (Nat.mod_eq_of_lt (show s.psc + 1 < p.prescale by omega)).symm
  all_goals
    have hlast : s.psc + 1 = p.prescale := by omega
    rw [hlast, Nat.mod_self]

/-- A clock ticks exactly when it completes the prescaler's period. -/
theorem clk1_tcnt {p : Params} {s : State} (h : s.psc < p.prescale) :
    (clk1 p s).tcnt = s.tcnt + BitVec.ofNat 8 ((s.psc + 1) / p.prescale) := by
  by_cases hlast : s.psc = p.prescale - 1
  · have htick : (s.psc + 1) / p.prescale = 1 := by
      rw [show s.psc + 1 = p.prescale by omega, Nat.div_self (prescale_pos p)]
    rw [htick]
    rcases clk1_cases p s with ⟨hne, -⟩ | ⟨-, -, -, hclk⟩ | ⟨-, hwrap, -, hclk⟩ | ⟨-, -, -, -, hclk⟩ | ⟨-, -, -, -, hclk⟩
    case inl => exact absurd hlast hne
    case inr.inr.inl => rw [hclk, hwrap]; rfl
    all_goals rw [hclk]
  · have hno : (s.psc + 1) / p.prescale = 0 := Nat.div_eq_of_lt (by omega)
    rw [hno, clk1, if_neg hlast]
    simp

theorem add_one_div_eq (a n : Nat) (h : 0 < n) : (a + 1) / n = a / n + (a % n + 1) / n := by
  calc (a + 1) / n = (a % n + 1 + n * (a / n)) / n := by
        congr 1; have := Nat.mod_add_div a n; omega
    _ = a / n + (a % n + 1) / n := by rw [Nat.add_mul_div_left _ _ h, Nat.add_comm]

/-- The prescaler and the counter after `k` clocks (R20, R92), by induction on the clocks. -/
theorem clkSteps_psc_tcnt {p : Params} {s : State} (h : s.psc < p.prescale) (k : Nat) :
    (clkSteps p k s).psc = (s.psc + k) % p.prescale ∧
      (clkSteps p k s).tcnt = s.tcnt + BitVec.ofNat 8 ((s.psc + k) / p.prescale) := by
  induction k with
  | zero => simp [Nat.mod_eq_of_lt h, Nat.div_eq_of_lt h]
  | succ k ih =>
    obtain ⟨hpsc, htcnt⟩ := ih
    have hlt : (clkSteps p k s).psc < p.prescale := by rw [hpsc]; exact Nat.mod_lt _ (prescale_pos p)
    rw [clkSteps_succ_last, clk1_psc hlt, clk1_tcnt hlt, hpsc, htcnt, ← Nat.add_assoc]
    constructor
    · rw [Nat.mod_add_mod]
    · rw [add_one_div_eq (s.psc + k) _ (prescale_pos p), BitVec.ofNat_add, BitVec.add_assoc]

/-! ### Indistinct states -/

theorem reset_indistinct (a : Byte) (b : Nat) (c : Bool) (d : Sample) :
    Indistinct State.reset { State.reset with tcnt := a, psc := b, tov := c, adsample := d } :=
  ⟨rfl, rfl, rfl, rfl, rfl, rfl, rfl, rfl, rfl, nofun, nofun⟩

/-- With the overflow interrupt disabled a clock changes the timer and its flag alone (R93). -/
theorem clk1_masked (p : Params) {s : State} (h : s.toie = false) :
    ∃ c v k, clk1 p s = { s with tcnt := c, tov := v, psc := k } := by
  rcases clk1_cases p s with ⟨-, hclk⟩ | ⟨-, -, -, hclk⟩ | ⟨-, -, -, hclk⟩ | ⟨-, -, hen, -⟩ | ⟨-, -, hen, -⟩
  · exact ⟨_, _, _, hclk⟩
  · exact ⟨_, _, _, hclk⟩
  · exact ⟨_, _, _, hclk⟩
  · exact absurd hen (by simp [h])
  · exact absurd hen (by simp [h])

/-- A clock wakes the supervisor exactly when it takes the overflow interrupt, which disables the driver or the interrupt
(R94). -/
theorem clk1_awake (p : Params) (s : State) :
    (clk1 p s).awake = (s.awake || (s.de && !(clk1 p s).de) || (s.toie && !(clk1 p s).toie)) := by
  rcases clk1_cases p s with ⟨-, hclk⟩ | ⟨-, -, -, hclk⟩ | ⟨-, -, -, hclk⟩ | ⟨-, -, -, hde, hclk⟩ | ⟨-, -, hen, -, hclk⟩ <;>
    rw [hclk] <;> simp [*]

/-- Indistinct states whose overflow interrupt is enabled have the same timing elements. -/
theorem Indistinct.timing_eq {s t : State} (h : Indistinct s t) (hen : s.toie = true) : s.timing = t.timing := by
  obtain ⟨htcnt, htov, hpsc⟩ := h.timer hen
  exact State.timing_eq_iff.2 ⟨htcnt, h.de, h.ledn, h.toie, htov, hpsc⟩

theorem clk1_indistinct (p : Params) {s t : State} (h : Indistinct s t) : Indistinct (clk1 p s) (clk1 p t) := by
  cases hen : s.toie with
  | false =>
    obtain ⟨_, _, _, hs⟩ := clk1_masked p hen
    obtain ⟨_, _, _, ht⟩ := clk1_masked p (h.toie.symm.trans hen)
    rw [hs, ht]
    exact { h with timer := fun hi => absurd hi (by simp [hen]) }
  | true =>
    have fs := clk1_frame p (ClockFrame.refl s)
    have ft := clk1_frame p (ClockFrame.refl t)
    obtain ⟨htcnt, hde, hledn, htoie, htov, hpsc⟩ := State.timing_eq_iff.1 (clk1_timing_congr p (h.timing_eq hen))
    exact {
      pt := by rw [fs.pt, ft.pt, h.pt]
      de := hde
      ledn := hledn
      toie := htoie
      adif := by rw [fs.adif, ft.adif, h.adif]
      adbusy := by rw [fs.adbusy, ft.adbusy, h.adbusy]
      wdc := by rw [fs.wdc, ft.wdc, h.wdc]
      awake := by rw [clk1_awake, clk1_awake, h.awake, h.de, h.toie, hde, htoie]
      trace := by rw [fs.trace, ft.trace, h.trace]
      timer := fun _ => ⟨htcnt, htov, hpsc⟩
      sample := fun hi => by rw [fs.adsample, ft.adsample, h.sample (fs.adif ▸ hi)] }

theorem clkSteps_indistinct (p : Params) (n : Nat) {s t : State} (h : Indistinct s t) :
    Indistinct (clkSteps p n s) (clkSteps p n t) := by
  induction n generalizing s t with
  | zero => exact h
  | succ n ih => exact ih (clk1_indistinct p h)

/-- `H_EDGE` writes the whole timer. -/
theorem hEdge_indistinct {s t : State} (h : Indistinct s t) : Indistinct (hEdge s) (hEdge t) :=
  { h with de := rfl, ledn := rfl, toie := rfl, awake := rfl, timer := fun _ => ⟨h.pt, rfl, rfl⟩ }

theorem latchSample_indistinct (v : Sample) {s t : State} (h : Indistinct s t) :
    Indistinct (latchSample v s) (latchSample v t) :=
  { h with adif := rfl, adbusy := rfl, awake := rfl, sample := fun _ => rfl }

theorem doReset_indistinct {s t : State} (h : Indistinct s t) : Indistinct (doReset s) (doReset t) :=
  { reset_indistinct 0 0 false 0 with trace := h.trace }

theorem wd1_indistinct (p : Params) {s t : State} (h : Indistinct s t) : Indistinct (wd1 p s) (wd1 p t) := by
  have hcount : s.wdc + 1 = t.wdc + 1 := congrArg (· + 1) h.wdc
  rw [wd1, wd1, hcount]
  split
  · exact doReset_indistinct h
  · split
    · exact { h with wdc := rfl, awake := rfl }
    · exact { h with wdc := rfl }

theorem wdSteps_indistinct (p : Params) (n : Nat) {s t : State} (h : Indistinct s t) :
    Indistinct (wdSteps p n s) (wdSteps p n t) := by
  induction n generalizing s t with
  | zero => exact h
  | succ n ih => exact ih (wd1_indistinct p h)

/-- A service pass reads the sample only where it is valid. -/
theorem servicePass_indistinct {s t : State} (h : Indistinct s t) : Indistinct (servicePass s) (servicePass t) := by
  have hadif := h.adif
  rcases servicePass_cases s with ⟨hs, hspass⟩ | ⟨hs, hspass⟩ <;>
    rcases servicePass_cases t with ⟨ht, htpass⟩ | ⟨ht, htpass⟩ <;> rw [hspass, htpass]
  · exact { h with pt := by rw [h.sample hs], adif := rfl, adbusy := rfl, wdc := rfl, awake := rfl, sample := nofun }
  · simp [hs, ht] at hadif
  · simp [hs, ht] at hadif
  · exact { h with wdc := rfl, awake := rfl }

theorem exec_indistinct_next {i : Instr} {s t u : State} (h : Indistinct s t) (hexec : exec i s = .next u) :
    ∃ v, exec i t = .next v ∧ Indistinct u v := by
  rcases exec_next_cases hexec with ⟨n, rfl, rfl⟩ | ⟨rfl, rfl⟩ | ⟨rfl, rfl⟩ | ⟨w, rfl, hbusy, rfl⟩ | ⟨n, rfl, rfl⟩ |
    ⟨rfl, hawake, rfl⟩ | ⟨rfl, rfl⟩
  · exact ⟨_, exec_clk n t, clkSteps_indistinct params n h⟩
  · exact ⟨_, exec_edge t, hEdge_indistinct h⟩
  · exact ⟨t, exec_rise t, h⟩
  · exact ⟨_, exec_adcc_of_adbusy w (h.adbusy.symm.trans hbusy), latchSample_indistinct w h⟩
  · exact ⟨_, exec_wdck n t, wdSteps_indistinct params n h⟩
  · exact ⟨_, exec_svc_of_awake (h.awake.symm.trans hawake), servicePass_indistinct h⟩
  · exact ⟨_, exec_rst t, doReset_indistinct h⟩

theorem exec_indistinct_refused {i : Instr} {s t : State} {r : Refusal} (h : Indistinct s t)
    (hexec : exec i s = .refused r) : exec i t = .refused r := by
  cases i with
  | adcc v =>
    obtain ⟨hbusy, rfl⟩ := exec_adcc_refused.1 hexec
    exact exec_adcc_refused.2 ⟨h.adbusy.symm.trans hbusy, rfl⟩
  | svc =>
    obtain ⟨hawake, rfl⟩ := exec_svc_refused.1 hexec
    exact exec_svc_refused.2 ⟨h.awake.symm.trans hawake, rfl⟩
  | clk n => cases hexec
  | edge => cases hexec
  | rise => cases hexec
  | wdck n => cases hexec
  | rst => cases hexec

theorem runOps_indistinct_next {is : List Instr} {s t u : State} (h : Indistinct s t) (hrun : runOps is s = .next u) :
    ∃ v, runOps is t = .next v ∧ Indistinct u v := by
  induction is generalizing s t with
  | nil => cases hrun; exact ⟨t, rfl, h⟩
  | cons i is ih =>
    obtain ⟨s', hexec, hrest⟩ := runOps_cons_next.1 hrun
    obtain ⟨t', hexec', h'⟩ := exec_indistinct_next h hexec
    rw [runOps_cons hexec']
    exact ih h' hrest

theorem runOps_indistinct_refused {is : List Instr} {s t : State} {r : Refusal} (h : Indistinct s t)
    (hrun : runOps is s = .refused r) : runOps is t = .refused r := by
  induction is generalizing s t with
  | nil => cases hrun
  | cons i is ih =>
    cases hexec : exec i s with
    | next s' =>
      obtain ⟨t', hexec', h'⟩ := exec_indistinct_next h hexec
      rw [runOps_cons hexec']
      exact ih h' ((runOps_cons hexec).symm.trans hrun)
    | refused q =>
      rw [runOps_cons_refused (exec_indistinct_refused h hexec)]
      exact (runOps_cons_refused hexec).symm.trans hrun
    | fault q => cases q

/-! ### The statements -/

/-- Settles O41: the decoded operation keeps the invariant, which says nothing of the word taken off the trace. -/
theorem stepKeepsInvariant : Obligations.StepKeepsInvariant := by
  intro s t hinv hstep
  obtain ⟨i, rest, -, hexec⟩ := step_next hstep
  exact exec_inv (hinv.withBytes rest) hexec

/-- Settles O11, by the frame that every clock keeps. -/
theorem clkAnswersWithFrame : Obligations.ClkAnswersWithFrame := by
  intro n s
  obtain ⟨hpt, hadsample, hadif, hadbusy, hwdc, htrace, hde, hledn, htoie, hawake⟩ := clkSteps_frame params n s
  exact ⟨_, exec_clk n s, hpt, hadsample, hadif, hadbusy, hwdc, htrace, hde, hledn, htoie, hawake⟩

/-- Settles O14. -/
theorem timerFreeRuns : Obligations.TimerFreeRuns :=
  fun k s hpsc => ⟨_, exec_clk k s, clkSteps_psc_tcnt hpsc k⟩

/-- Settles O45. -/
theorem accessMatrixWrites : Obligations.AccessMatrixWrites :=
  fun _ _ _ _ => exec_same_of_not_mayWrite

/-- Settles O47, by the `PT` column of the access matrix: only `SVC` and `RST` may write it, and `SVC` does so only with a
sample waiting. -/
theorem onlyServiceAndResetChangePt : Obligations.OnlyServiceAndResetChangePt := by
  intro i s t hexec hne
  cases hx : expires params s i with
  | true => exact .inr (.inr rfl)
  | false =>
    have hw : mayWrite i .pt = true := by
      by_contra hno
      have hsame : s.pt = t.pt := exec_same_of_not_mayWrite (e := .pt) hexec (Bool.eq_false_of_not_eq_true hno) hx
      exact hne hsame.symm
    rcases eq_svc_or_rst_of_mayWrite_pt hw with rfl | rfl
    · obtain ⟨-, rfl⟩ := exec_svc_next.1 hexec
      cases hadif : s.adif with
      | true => exact .inl ⟨rfl, rfl⟩
      | false => exact absurd (servicePass_pt_of_not_adif hadif) hne
    · exact .inr (.inl rfl)

/-- Settles O52, by induction on the operations. -/
theorem maskedTimerAndStaleSampleUnobservable : Obligations.MaskedTimerAndStaleSampleUnobservable :=
  fun _ _ _ h => ⟨fun _ => runOps_indistinct_next h, fun _ => runOps_indistinct_refused h⟩

/-- Settles O40. -/
theorem resetMeetsInvariant : Obligations.ResetMeetsInvariant := reset_inv params

/-- Settles O51. -/
theorem resetValuesIndistinct : Obligations.ResetValuesIndistinct := reset_indistinct

/-- Settles O54. -/
theorem phaseTable : Obligations.PhaseTable :=
  fun s => ⟨phase_eq_idle_iff s, phase_eq_armedShort_iff s, phase_eq_armedLong_iff s⟩

end Sys2Proof.Machine
end

section
/-! PROOFS. The memory of the block (spec/20_memory.md): the Tick Table, and the race of an edge with the service pass that
takes a new reload value from it. -/

namespace Sys2Proof.Machine

/-! ### The Tick Table -/

theorem memRead_entries :
    (List.finRange 8).map (fun i => memRead (BitVec.ofFin i)) = [1#8, 2#8, 3#8, 6#8, 12#8, 24#8, 47#8, 94#8] := by
  decide

/-- The reload value of each entry, from the entries themselves. -/
theorem reload_entries :
    (List.finRange 8).map (fun i => reload (memRead (BitVec.ofFin i))) =
      [255#8, 254#8, 253#8, 250#8, 244#8, 232#8, 209#8, 162#8] := by
  calc (List.finRange 8).map (fun i => reload (memRead (BitVec.ofFin i)))
      = ((List.finRange 8).map (fun i => memRead (BitVec.ofFin i))).map reload := List.map_map.symm
    _ = [1#8, 2#8, 3#8, 6#8, 12#8, 24#8, 47#8, 94#8].map reload := by rw [memRead_entries]
    _ = [255#8, 254#8, 253#8, 250#8, 244#8, 232#8, 209#8, 162#8] := by decide

/-- The entries rise strictly, over the 64 pairs of indices. -/
theorem memRead_lt_memRead : ∀ i j : TickIdx, i < j → memRead i < memRead j := by
  decide

/-! ### A service pass and the pulse under way -/

theorem servicePass_pt_of_adif {s : State} (h : s.adif = true) :
    (servicePass s).pt = reload (memRead (calIndex s.adsample)) := by
  rw [servicePass, calPoll, if_pos h]

theorem servicePass_tcnt (s : State) : (servicePass s).tcnt = s.tcnt :=
  (State.timing_eq_iff.1 (servicePass_timing s)).1

/-- The phase is a function of the timing elements (R31). -/
theorem phase_congr {s t : State} (h : s.timing = t.timing) : s.phase = t.phase := by
  obtain ⟨-, hde, hledn, htoie, -, -⟩ := State.timing_eq_iff.1 h
  rw [State.phase, State.phase, hde, hledn, htoie]

theorem servicePass_phase (s : State) : (servicePass s).phase = s.phase := phase_congr (servicePass_timing s)

@[simp] theorem hEdge_phase (s : State) : (hEdge s).phase = some .armedShort := rfl

/-! ### The two orders of the race -/

/-- The edge runs before the pass; the conversion keeps the supervisor awake for both. -/
theorem runOps_adcc_edge_svc {s : State} (v : Sample) (h : s.adbusy = true) :
    runOps [.adcc v, .edge, .svc] s = .next (servicePass (hEdge (latchSample v s))) := by
  rw [runOps_cons (exec_adcc_of_adbusy v h), runOps_cons (exec_edge _), runOps_cons (exec_svc_of_awake (hEdge_awake _)),
    runOps_nil]

theorem runOps_adcc_svc_edge {s : State} (v : Sample) (h : s.adbusy = true) :
    runOps [.adcc v, .svc, .edge] s = .next (hEdge (servicePass (latchSample v s))) := by
  rw [runOps_cons (exec_adcc_of_adbusy v h), runOps_cons (exec_svc_of_awake (latchSample_awake v s)),
    runOps_cons (exec_edge _), runOps_nil]

/-! ### The statements -/

/-- Settles O24. -/
theorem tickTableAndReloadValues : Obligations.TickTableAndReloadValues :=
  ⟨memRead_entries, reload_entries, memRead_lt_memRead⟩

/-- Settles O30: an edge before the pass has loaded the old `PT`, and the pass leaves the timing elements alone; an edge after
it loads what the pass wrote. In both orders the pass looks up the one waiting sample. -/
theorem edgeRacesCalibration : Obligations.EdgeRacesCalibration := by
  intro v s hbusy
  have hptEdge : (servicePass (hEdge (latchSample v s))).pt = reload (memRead (calIndex v)) :=
    servicePass_pt_of_adif rfl
  have hptPass : (servicePass (latchSample v s)).pt = reload (memRead (calIndex v)) := servicePass_pt_of_adif rfl
  have htcnt : (servicePass (hEdge (latchSample v s))).tcnt = s.pt := servicePass_tcnt _
  have hphase : (servicePass (hEdge (latchSample v s))).phase = some .armedShort := servicePass_phase _
  exact ⟨_, _, runOps_adcc_edge_svc v hbusy, runOps_adcc_svc_edge v hbusy, htcnt, hptPass, hptEdge.trans hptPass.symm, rfl,
    hphase, hEdge_phase _⟩

end Sys2Proof.Machine
end

section
/-! PROOFS. The encoding (spec/30_encoding.md): the word of an operation and the operation of a word, the operation map, the
words that are refused, the calibration path's encodings, the pseudo-operations and the text form of a trace. -/

namespace Sys2Proof.Machine

open Sys2Proof.Config

/-! ### The operation of a word -/

theorem stimWord_of_opField {w : StimWord} (op : BitVec 4) (hz : zField w = 0) (hop : (opField w).toNat = op.toNat) :
    stimWord op (argField w) = w := by
  rw [← BitVec.eq_of_toNat_eq hop, stimWord_fields w hz]

theorem argField_le_maxCount (w : StimWord) : (argField w).toNat ≤ maxCount :=
  Nat.le_of_lt_succ (argField w).isLt

theorem clk_spells {w : StimWord} (h : stimWord 0x1#4 (argField w) = w) :
    (Instr.clk (argField w).toNat).wellFormed = true ∧ encodeWord (.clk (argField w).toNat) = w :=
  ⟨decide_eq_true (argField_le_maxCount w), by simpa [encodeWord] using h⟩

theorem wdck_spells {w : StimWord} (h : stimWord 0x5#4 (argField w) = w) :
    (Instr.wdck (argField w).toNat).wellFormed = true ∧ encodeWord (.wdck (argField w).toNat) = w :=
  ⟨decide_eq_true (argField_le_maxCount w), by simpa [encodeWord] using h⟩

theorem zeroOperand_ok {arg : BitVec 10} {i j : Instr} : zeroOperand arg i = .ok j ↔ arg = 0 ∧ i = j := by
  unfold zeroOperand
  split
  next h => simp [h]
  next h => simp only [reduceCtorEq, h, false_and]

/-- Format Z: the word of `op` whose operand was found to be zero (R58). -/
theorem zeroOperand_ok_spells {w : StimWord} {op : BitVec 4} {i j : Instr} (hw : stimWord op (argField w) = w)
    (hwf : i.wellFormed = true) (henc : encodeWord i = stimWord op 0) (h : zeroOperand (argField w) i = .ok j) :
    j.wellFormed = true ∧ encodeWord j = w := by
  obtain ⟨harg, rfl⟩ := zeroOperand_ok.1 h
  exact ⟨hwf, by rw [henc, ← harg, hw]⟩

/-- What a word decodes to is well formed, and the word is its encoding. -/
theorem decodeWord_ok {w : StimWord} {i : Instr} (h : decodeWord w = .ok i) :
    i.wellFormed = true ∧ encodeWord i = w := by
  unfold decodeWord at h
  split at h
  next hz =>
    split at h
    next hop => cases h; exact clk_spells (stimWord_of_opField 0x1#4 hz hop)
    next hop => exact zeroOperand_ok_spells (stimWord_of_opField 0x2#4 hz hop) rfl rfl h
    next hop => exact zeroOperand_ok_spells (stimWord_of_opField 0x3#4 hz hop) rfl rfl h
    next hop => cases h; exact ⟨rfl, stimWord_of_opField 0x4#4 hz hop⟩
    next hop => cases h; exact wdck_spells (stimWord_of_opField 0x5#4 hz hop)
    next hop => exact zeroOperand_ok_spells (stimWord_of_opField 0x6#4 hz hop) rfl rfl h
    next hop => exact zeroOperand_ok_spells (stimWord_of_opField 0x7#4 hz hop) rfl rfl h
    next => cases h
  next => cases h

theorem decodeWord_eq_ok_iff {w : StimWord} {i : Instr} :
    decodeWord w = .ok i ↔ i.wellFormed = true ∧ encodeWord i = w := by
  constructor
  · exact decodeWord_ok
  · rintro ⟨hwf, rfl⟩
    exact decodeWord_encodeWord hwf

/-! ### The operation map -/

theorem row_mem_opTable (i : Instr) : i.row ∈ opTable := by
  cases i <;> simp [opTable, Instr.row]

theorem encodesInItsRow (i : Instr) : Laws.EncodesInItsRow.Statement i := by
  cases i with
  | clk n => exact Laws.EncodesInItsRow.clk n
  | edge => exact Laws.EncodesInItsRow.edge
  | rise => exact Laws.EncodesInItsRow.rise
  | adcc v => exact Laws.EncodesInItsRow.adcc v
  | wdck n => exact Laws.EncodesInItsRow.wdck n
  | svc => exact Laws.EncodesInItsRow.svc
  | rst => exact Laws.EncodesInItsRow.rst

/-- The mask of formats C and S fixes every field but `arg`. -/
theorem stimWord_of_match {w : StimWord} {op : BitVec 4} (h : w &&& 0xFC00#16 = stimWord op 0) :
    stimWord op (argField w) = w := by
  have hop : opField w = op := by
    have hmask : opField (w &&& 0xFC00#16) = opField w := by
      rw [opField, BitVec.extractLsb'_and]
      exact BitVec.and_allOnes
    rw [← hmask, h, opField_stimWord]
  have hz : zField w = 0 := by
    have hmask : zField (w &&& 0xFC00#16) = zField w := by
      rw [zField, BitVec.extractLsb'_and]
      exact BitVec.and_allOnes
    rw [← hmask, h, zField_stimWord]
  rw [← hop, stimWord_fields w hz]

/-- The mask of format Z fixes the whole word. -/
theorem eq_of_full_match {w m : StimWord} (h : w &&& 0xFFFF#16 = m) : m = w :=
  h.symm.trans BitVec.and_allOnes

/-- A word that matches a row of R59 is the word of the operation that the row builds. -/
theorem match_spells {w : StimWord} {r : OpRow} (hr : r ∈ opTable) (h : w &&& r.mask = r.pattern) :
    (r.build (argField w)).wellFormed = true ∧ encodeWord (r.build (argField w)) = w := by
  simp only [opTable, List.mem_cons, List.not_mem_nil, or_false] at hr
  obtain rfl | rfl | rfl | rfl | rfl | rfl | rfl := hr
  · exact clk_spells (stimWord_of_match h)
  · exact ⟨rfl, eq_of_full_match h⟩
  · exact ⟨rfl, eq_of_full_match h⟩
  · exact ⟨rfl, stimWord_of_match h⟩
  · exact wdck_spells (stimWord_of_match h)
  · exact ⟨rfl, eq_of_full_match h⟩
  · exact ⟨rfl, eq_of_full_match h⟩

/-! ### The words that are refused -/

theorem decodeWord_reservedBits {w : StimWord} (h : zField w ≠ 0) : decodeWord w = .error .reservedBits :=
  if_neg h

theorem decodeWord_unassignedOp {w : StimWord} (hz : zField w = 0)
    (hop : (opField w).toNat = 0 ∨ 8 ≤ (opField w).toNat) : decodeWord w = .error .unassignedOp := by
  rw [decodeWord, if_pos hz]
  split
  case h_8 => rfl
  all_goals omega

theorem zeroOperand_error {arg : BitVec 10} (i : Instr) (h : arg ≠ 0) : zeroOperand arg i = .error .operandNotZero :=
  if_neg h

theorem decodeWord_operandNotZero {w : StimWord} (hz : zField w = 0) (hop : (opField w).toNat ∈ [2, 3, 6, 7])
    (harg : argField w ≠ 0) : decodeWord w = .error .operandNotZero := by
  simp only [List.mem_cons, List.not_mem_nil, or_false] at hop
  rw [decodeWord, if_pos hz]
  obtain hop | hop | hop | hop := hop <;> rw [hop] <;> exact zeroOperand_error _ harg

theorem step_of_decode_error {s : State} {e : DecodeError} (h : decode s.trace = .error e) :
    step s = .refused (.badWord e) := by
  simp [step, fetch, h]

theorem step_of_decodeWord_error {s : State} {hi lo : Byte} {rest : List Byte} {e : DecodeError}
    (hs : s.trace = hi :: lo :: rest) (h : decodeWord (bytesWord hi lo) = .error e) :
    step s = .refused (.badWord e) :=
  step_of_decode_error (by simp [hs, decode, h])

/-! ### The calibration path -/

theorem calIndex_toNat (v : Sample) : (calIndex v).toNat = v.toNat / 128 := by
  have hv : v.toNat < 1024 := v.isLt
  simp only [calIndex, BitVec.extractLsb'_toNat, Nat.shiftRight_eq_div_pow]
  omega

theorem reload_toNat (t : Byte) : (reload t).toNat = (256 - t.toNat) % 256 := BitVec.toNat_ofNat _ _

theorem reload_toNat_of_ne {t : Byte} (h : t ≠ 0) : (reload t).toNat = 256 - t.toNat := by
  have hpos : t.toNat ≠ 0 := fun h0 => h (BitVec.eq_of_toNat_eq h0)
  rw [reload_toNat]
  omega

theorem memRead_ne_zero : ∀ i : TickIdx, memRead i ≠ 0 := by decide

/-! ### The pseudo-operations -/

/-- The sample that `CAL i` converts is the least of index `i` (R70). -/
theorem calIndex_calSample (i : TickIdx) : calIndex (BitVec.ofNat 10 (128 * i.toNat)) = i := by
  have hi : i.toNat < 8 := i.isLt
  apply BitVec.eq_of_toNat_eq
  rw [calIndex_toNat, BitVec.toNat_ofNat]
  omega

theorem runOps_adcc_svc {s : State} (v : Sample) (h : s.adbusy = true) :
    runOps [.adcc v, .svc] s = .next (servicePass (latchSample v s)) := by
  rw [runOps_cons (exec_adcc_of_adbusy v h), runOps_cons (exec_svc_of_awake (latchSample_awake v s)), runOps_nil]

/-- Words of `CLK m` before other operations are that many clocks before them. -/
theorem runOps_replicate_clk_append (q m : Nat) (is : List Instr) (s : State) :
    runOps (List.replicate q (.clk m) ++ is) s = runOps is (clkSteps params (q * m) s) := by
  induction q generalizing s with
  | zero => simp
  | succ q ih =>
    rw [List.replicate_succ, List.cons_append, runOps_cons (exec_clk m s), ih, ← clkSteps_add, Nat.succ_mul, Nat.add_comm]

/-- The word that `splitClocks` puts last holds what the full words leave. -/
theorem splitClocks_rest (n : Nat) :
    (n - 1) / maxCount * maxCount ≤ n ∧ n - (n - 1) / maxCount * maxCount ≤ maxCount := by
  unfold maxCount
  omega

theorem splitClocks_wellFormed (n : Nat) : ∀ i ∈ splitClocks n, i.wellFormed = true := by
  intro i hi
  rcases List.mem_append.1 hi with hfull | hlast
  · rw [List.eq_of_mem_replicate hfull]
    rfl
  · rw [List.mem_singleton.1 hlast]
    exact decide_eq_true (splitClocks_rest n).2

theorem runOps_splitClocks (n : Nat) (s : State) : runOps (splitClocks n) s = exec (.clk n) s := by
  rw [splitClocks, runOps_replicate_clk_append, runOps_cons (exec_clk _ _), runOps_nil, ← clkSteps_add, exec_clk,
    Nat.add_sub_of_le (splitClocks_rest n).1]

theorem splitClocks_of_le {n : Nat} (h : n ≤ maxCount) : splitClocks n = [.clk n] := by
  have hq : (n - 1) / maxCount = 0 := by
    unfold maxCount at *
    omega
  simp [splitClocks, hq]

/-! ### The text form of a trace -/

theorem exceptMap_ok {ε α β : Type} {f : α → β} {x : Except ε α} {b : β} :
    x.map f = .ok b ↔ ∃ a, x = .ok a ∧ f a = b := by
  cases x <;> simp [Except.map]

/-- An operand in range is read as it stands; so is a default that lies in range. -/
theorem readOperand_le {d : Option Nat} {top n : Nat} {ops : List (List Char)} (hd : ∀ k ∈ d, k ≤ top)
    (h : readOperand d (some top) ops = .ok n) : n ≤ top := by
  unfold readOperand at h
  split at h
  · split at h
    · cases h
      exact hd _ rfl
    · cases h
  · split at h
    · cases h
    · split at h
      next hle =>
        cases h
        simpa using hle
      next => cases h
  · cases h

theorem readCount_le {n : Nat} {ops : List (List Char)} (h : readOperand (some 1) (some maxCount) ops = .ok n) :
    n ≤ maxCount :=
  readOperand_le (by simp [maxCount]) h

theorem noOperand_ok {is js : List Instr} {ops : List (List Char)} (h : noOperand is ops = .ok js) : is = js := by
  cases ops with
  | nil => exact Except.ok.inj h
  | cons w ws => cases h

theorem pseudo_expand_wellFormed (p : Params) (x : Pseudo) : ∀ i ∈ x.expand p, i.wellFormed = true := by
  cases x with
  | tick k => exact splitClocks_wellFormed _
  | cal i => simp [Pseudo.expand, Instr.wellFormed]
  | nop => simp [Pseudo.expand, Instr.wellFormed]

/-- A line spells operations that words spell: its counts are bounded as it is read, and the pseudo-operations expand to
well-formed operations. -/
theorem readFields_wellFormed {p : Params} {fields : List (List Char)} {is : List Instr}
    (h : readFields p fields = .ok is) : ∀ i ∈ is, i.wellFormed = true := by
  unfold readFields at h
  split at h
  · cases h; simp
  split at h
  case h_1 | h_5 =>
    obtain ⟨n, hn, rfl⟩ := exceptMap_ok.1 h
    simpa [Instr.wellFormed] using readCount_le hn
  case h_2 | h_3 | h_6 | h_7 => simp [← noOperand_ok h, Instr.wellFormed]
  case h_4 =>
    obtain ⟨n, -, rfl⟩ := exceptMap_ok.1 h
    simp [Instr.wellFormed]
  case h_8 | h_9 =>
    obtain ⟨k, -, rfl⟩ := exceptMap_ok.1 h
    exact pseudo_expand_wellFormed p _
  case h_10 =>
    obtain rfl := noOperand_ok h
    exact pseudo_expand_wellFormed p _
  case h_11 => cases h

theorem readLines_wellFormed {p : Params} {lines : List (List Char)} {is : List Instr}
    (h : readLines p lines = .ok is) : ∀ i ∈ is, i.wellFormed = true := by
  induction lines generalizing is with
  | nil => cases h; simp
  | cons l ls ih =>
    unfold readLines at h
    split at h
    · cases h
    next js hjs =>
      obtain ⟨ks, hks, rfl⟩ := exceptMap_ok.1 h
      intro i hi
      exact (List.mem_append.1 hi).elim (readFields_wellFormed hjs i) (ih hks i)

/-! ### The statements -/

/-- Settles O1. -/
theorem decodeEncodeRoundTrip : Obligations.DecodeEncodeRoundTrip :=
  fun _ rest hwf => decode_encode_append hwf rest

/-- Settles O2: the two bytes that decode are the bytes of their word, and that word is the operation's encoding. -/
theorem encodeDecodeRoundTrip : Obligations.EncodeDecodeRoundTrip := by
  intro bytes rest i h
  obtain ⟨hi, lo, rfl, hword⟩ := decode_ok h
  obtain ⟨hwf, henc⟩ := decodeWord_ok hword
  exact ⟨hwf, by rw [encode, henc, wordBytes_bytesWord]; rfl⟩

/-- Settles O3: both sides say that `i` is well formed and `w` is its encoding. -/
theorem decodeAgreesWithOperationMap : Obligations.DecodeAgreesWithOperationMap := by
  intro w i
  rw [decodeWord_eq_ok_iff]
  constructor
  · rintro ⟨hwf, rfl⟩
    exact ⟨i.row, row_mem_opTable i, encodesInItsRow i hwf⟩
  · rintro ⟨r, hr, hmatch, rfl⟩
    exact match_spells hr hmatch

/-- Settles O55: however clocks are split, they add up; `CAL i` converts a sample of index `i` and the pass looks it up. -/
theorem pseudoOperationsExpand : Obligations.PseudoOperationsExpand := by
  refine fun s => ⟨fun k => ⟨splitClocks_wellFormed _, runOps_splitClocks _ s, splitClocks_of_le⟩, fun i hbusy => ?_, ?_⟩
  · refine ⟨_, runOps_adcc_svc _ hbusy, ?_⟩
    rw [servicePass_pt_of_adif (latchSample_adif _ s), latchSample_adsample, calIndex_calSample,
      reload_toNat_of_ne (memRead_ne_zero i)]
  · exact runOps_cons (exec_rise s)

/-- Settles O56, line by line. -/
theorem textSpellsWellFormedOperations : Obligations.TextSpellsWellFormedOperations :=
  fun _ _ _ h => readLines_wellFormed h

/-- Settles O4. -/
theorem stepRefusesReservedWords : Obligations.StepRefusesReservedWords :=
  fun _ _ _ _ hs =>
    ⟨fun hz => step_of_decodeWord_error hs (decodeWord_reservedBits hz),
      fun hz hop => step_of_decodeWord_error hs (decodeWord_unassignedOp hz hop),
      fun hz hop harg => step_of_decodeWord_error hs (decodeWord_operandNotZero hz hop harg)⟩

/-- Settles O5. -/
theorem stepRefusesAtEndOfTrace : Obligations.StepRefusesAtEndOfTrace :=
  fun _ => ⟨fun hs => step_of_decode_error (by rw [hs]; rfl), fun _ hs => step_of_decode_error (by rw [hs]; rfl)⟩

/-- Settles O7, by running the decoder on the nine words. -/
theorem wordsOfOperationMapDecode : Obligations.WordsOfOperationMapDecode := by
  unfold Obligations.WordsOfOperationMapDecode
  decide

/-- Settles O25: the index is the sample divided by 128, and shift and mask divide by 128 as well. -/
theorem calibrationIndexIsTopThreeBits : Obligations.CalibrationIndexIsTopThreeBits := by
  intro v
  have hv : v.toNat < 1024 := v.isLt
  have hbits : (v.toNat >>> 7) &&& 7 = v.toNat / 128 := by
    rw [Nat.and_two_pow_sub_one_eq_mod _ 3, Nat.shiftRight_eq_div_pow]
    omega
  rw [calIndex_toNat, hbits]
  omega

/-- Settles O26. -/
theorem reloadValueInverts : Obligations.ReloadValueInverts := by
  intro t
  refine ⟨reload_toNat t, fun h => ?_⟩
  have ht : t.toNat < 256 := t.isLt
  rw [pulseLength, reload_toNat_of_ne h]
  omega

end Sys2Proof.Machine
end

section
/-! PROOFS. The Edge Detector (spec/40_edge_detector.md): the two operations of the transmit line, the pulse that an edge
starts, and the edges that extend it. -/

namespace Sys2Proof.Machine

open Sys2Proof.Config

/-! ### The edge handler -/

/-- Corner case (e) of R80: the handler is idempotent. -/
@[simp] theorem hEdge_hEdge (s : State) : hEdge (hEdge s) = hEdge s := rfl

/-! ### Clocks up to an overflow, and the clock that overflows

From the counter value `c` an overflow needs `pulseLength c` ticks, so `pulseLength c * N` clocks counted from the start of the
tick under way. -/

theorem pulseLength_pos (c : Byte) : 0 < pulseLength c := Nat.sub_pos_of_lt c.isLt

theorem clk1_of_no_overflow {p : Params} {s : State} (hready : overflowReady s = false)
    (hcount : s.psc = p.prescale - 1 → s.tcnt ≠ 255#8) :
    clk1 p s = { s with psc := (clk1 p s).psc, tcnt := (clk1 p s).tcnt } := by
  have hno (hwrap : s.tcnt = 255#8 ∨ s.tov = true) (hlast : s.psc = p.prescale - 1) : s.toie = false := by
    rcases hwrap with hwrap | htov
    · exact absurd hwrap (hcount hlast)
    · simpa [overflowReady, htov] using hready
  rcases clk1_cases p s with ⟨-, hclk⟩ | ⟨-, -, -, hclk⟩ | ⟨hlast, hwrap, -, -⟩ | ⟨hlast, hwrap, hen, -⟩ |
    ⟨hlast, hwrap, hen, -⟩
  · rw [hclk]
  · rw [hclk]
  · exact absurd hwrap (hcount hlast)
  · exact absurd hen (by simp [hno hwrap hlast])
  · exact absurd hen (by simp [hno hwrap hlast])

/-- The clock that overflows, with the interrupt enabled, is the handler `H_OVF` on a timer at 0 (R91, R94). -/
theorem clk1_of_overflow {p : Params} {s : State} (hlast : s.psc = p.prescale - 1) (hwrap : s.tcnt = 255#8)
    (hen : s.toie = true) : clk1 p s = hOvf { s with psc := 0, tcnt := 0#8 } := by
  rcases clk1_cases p s with ⟨hne, -⟩ | ⟨-, hne, -⟩ | ⟨-, -, hmask, -⟩ | ⟨-, -, -, hde, hclk⟩ | ⟨-, -, -, hde, hclk⟩
  · exact absurd hlast hne
  · exact absurd hwrap hne
  · exact absurd hen (by simp [hmask])
  · rw [hclk, hwrap]; exact (hOvf_short (s := { s with psc := 0, tcnt := 0#8 }) hde).symm
  · rw [hclk, hwrap]; exact (hOvf_long (s := { s with psc := 0, tcnt := 0#8 }) hde).symm

/-- Fewer clocks than an overflow needs change the prescaler and the counter alone. -/
theorem clkSteps_of_no_overflow {p : Params} {s : State} {k : Nat} (hpsc : s.psc < p.prescale)
    (hready : overflowReady s = false) (hk : s.psc + k < pulseLength s.tcnt * p.prescale) :
    clkSteps p k s =
      { s with
        psc := (s.psc + k) % p.prescale
        tcnt := s.tcnt + BitVec.ofNat 8 ((s.psc + k) / p.prescale) } := by
  suffices hframe : clkSteps p k s = { s with psc := (clkSteps p k s).psc, tcnt := (clkSteps p k s).tcnt } by
    obtain ⟨hphase, hcount⟩ := clkSteps_psc_tcnt hpsc k
    rw [hframe, hphase, hcount]
  induction k with
  | zero => rfl
  | succ k ih =>
    obtain ⟨hphase, hcount⟩ := clkSteps_psc_tcnt hpsc k
    have hu := ih (by omega)
    rw [clkSteps_succ_last]
    generalize clkSteps p k s = u at *
    have hready' : overflowReady u = false := by rw [hu]; exact hready
    have hno (hlast : u.psc = p.prescale - 1) : u.tcnt ≠ 255#8 := by
      have hticks : (s.psc + (k + 1)) / p.prescale < 256 - s.tcnt.toNat := (Nat.div_lt_iff_lt_mul (prescale_pos p)).2 hk
      have hN := prescale_pos p
      rw [← Nat.add_assoc, add_one_div_eq _ _ hN, ← hphase, hlast, Nat.sub_add_cancel hN, Nat.div_self hN] at hticks
      intro hwrap
      generalize (s.psc + k) / p.prescale = q at hcount hticks
      rw [hcount] at hwrap
      bv_omega
    rw [clk1_of_no_overflow hready' hno, hu]

/-- As many clocks as an overflow needs take it (R91, R94). -/
theorem clkSteps_of_overflow {p : Params} {s : State} {k : Nat} (hpsc : s.psc < p.prescale)
    (htov : s.tov = false) (hen : s.toie = true) (hk : s.psc + k = pulseLength s.tcnt * p.prescale) :
    clkSteps p k s = hOvf { s with psc := 0, tcnt := 0#8 } := by
  have hN := prescale_pos p
  obtain ⟨l, hl⟩ : ∃ l, pulseLength s.tcnt = l + 1 := Nat.exists_eq_add_one.2 (pulseLength_pos _)
  rw [hl, Nat.succ_mul] at hk
  obtain ⟨j, rfl⟩ : ∃ j, k = j + 1 := Nat.exists_eq_add_one.2 (by omega)
  have hj : s.psc + j = p.prescale - 1 + l * p.prescale := by omega
  have hready : overflowReady s = false := by simp [overflowReady, htov]
  have hbefore : s.psc + j < pulseLength s.tcnt * p.prescale := by rw [hl, Nat.succ_mul]; omega
  have hphase : (s.psc + j) % p.prescale = p.prescale - 1 := by
    rw [hj, Nat.add_mul_mod_self_right, Nat.mod_eq_of_lt (by omega)]
  have hticks : (s.psc + j) / p.prescale = l := by
    rw [hj, Nat.add_mul_div_right _ _ hN, Nat.div_eq_of_lt (by omega), Nat.zero_add]
  have hcount : s.tcnt + BitVec.ofNat 8 l = 255#8 := by
    have hlen : 256 - s.tcnt.toNat = l + 1 := hl
    bv_omega
  rw [clkSteps_succ_last, clkSteps_of_no_overflow hpsc hready hbefore, hphase, hticks]
  exact clk1_of_overflow rfl hcount hen

/-! ### The three phases under clocks alone -/

theorem clkSteps_phase_of_no_overflow {p : Params} {s : State} {k : Nat} (hpsc : s.psc < p.prescale)
    (hready : overflowReady s = false) (hk : s.psc + k < pulseLength s.tcnt * p.prescale) :
    (clkSteps p k s).phase = s.phase := by
  rw [clkSteps_of_no_overflow hpsc hready hk]; rfl

/-- No number of clocks leaves `IDLE`: each output moves one way only. -/
theorem clkSteps_phase_of_idle (p : Params) (k : Nat) {s : State} (h : s.phase = some .idle) :
    (clkSteps p k s).phase = some .idle := by
  obtain ⟨hde, hledn, htoie⟩ := (phase_eq_idle_iff s).1 h
  have hframe := clkSteps_frame p k s
  refine (phase_eq_idle_iff _).2 ⟨?_, hframe.ledn_rises hledn, ?_⟩
  · exact Bool.eq_false_of_not_eq_true fun ht => absurd (hframe.de_falls ht) (by simp [hde])
  · exact Bool.eq_false_of_not_eq_true fun ht => absurd (hframe.toie_falls ht) (by simp [htoie])

theorem hOvf_phase_of_armedShort {s : State} (h : s.phase = some .armedShort) : (hOvf s).phase = some .armedLong := by
  obtain ⟨hde, hledn, htoie⟩ := (phase_eq_armedShort_iff s).1 h
  rw [hOvf_short hde]
  exact (phase_eq_armedLong_iff _).2 ⟨rfl, hledn, htoie⟩

theorem hOvf_phase_of_armedLong {s : State} (h : s.phase = some .armedLong) : (hOvf s).phase = some .idle := by
  obtain ⟨hde, -, -⟩ := (phase_eq_armedLong_iff s).1 h
  rw [hOvf_long hde]
  exact (phase_eq_idle_iff _).2 ⟨hde, rfl, rfl⟩

/-- The long phase from a timer at 0 is one full period of the timer, and `IDLE` follows (R98). -/
theorem clkSteps_phase_of_armedLong {p : Params} {s : State} (h : s.phase = some .armedLong) (htcnt : s.tcnt = 0#8)
    (hpsc : s.psc = 0) (htov : s.tov = false) (k : Nat) :
    (clkSteps p k s).phase = some (if k < 256 * p.prescale then .armedLong else .idle) := by
  obtain ⟨-, -, hen⟩ := (phase_eq_armedLong_iff s).1 h
  have hlt : s.psc < p.prescale := by rw [hpsc]; exact prescale_pos p
  have hperiod : pulseLength s.tcnt = 256 := by rw [htcnt]; rfl
  split
  case isTrue hk =>
    rw [clkSteps_phase_of_no_overflow hlt (by simp [overflowReady, htov]) (by rw [hperiod, hpsc]; omega), h]
  case isFalse hk =>
    obtain ⟨j, rfl⟩ := Nat.exists_eq_add_of_le (Nat.le_of_not_lt hk)
    rw [clkSteps_add, clkSteps_of_overflow hlt htov hen (by rw [hperiod, hpsc, Nat.zero_add])]
    exact clkSteps_phase_of_idle p j (hOvf_phase_of_armedLong h)

/-! ### The pulse that an edge starts -/

/-- The short phase lasts as long as the reload value that the edge loaded says, the prescaler starting at phase 0 (R83). -/
theorem clkSteps_hEdge_phase_short {p : Params} {s : State} {k : Nat} (hk : k < pulseLength s.pt * p.prescale) :
    (clkSteps p k (hEdge s)).phase = some .armedShort :=
  clkSteps_phase_of_no_overflow (prescale_pos p) rfl (by simpa using hk)

/-- The short phase ends in the first form of `H_OVF`, with the timer at 0 (R94). -/
theorem clkSteps_hEdge_overflow (p : Params) (s : State) :
    clkSteps p (pulseLength s.pt * p.prescale) (hEdge s) = hOvf { hEdge s with psc := 0, tcnt := 0#8 } :=
  clkSteps_of_overflow (prescale_pos p) rfl rfl (Nat.zero_add _)

/-- The phase `k` clocks after an edge, whatever the state before it (R97, R98, R99). -/
theorem clkSteps_hEdge_phase (p : Params) (s : State) (k : Nat) :
    (clkSteps p k (hEdge s)).phase =
      some (if k < pulseLength s.pt * p.prescale then .armedShort
        else if k < (pulseLength s.pt + 256) * p.prescale then .armedLong else .idle) := by
  by_cases hk : k < pulseLength s.pt * p.prescale
  · rw [if_pos hk, clkSteps_hEdge_phase_short hk]
  · obtain ⟨j, rfl⟩ := Nat.exists_eq_add_of_le (Nat.le_of_not_lt hk)
    have hlong : (hOvf { hEdge s with psc := 0, tcnt := 0#8 }).phase = some .armedLong := hOvf_phase_of_armedShort rfl
    rw [if_neg hk, clkSteps_add, clkSteps_hEdge_overflow, clkSteps_phase_of_armedLong hlong rfl rfl rfl, Nat.add_mul]
    simp only [Nat.add_lt_add_iff_left]

/-! ### The outputs in a phase -/

/-- The driver is enabled in the short phase alone (R31, R97). -/
theorem de_iff_of_phase {s : State} {ph : Phase} (h : s.phase = some ph) : s.de = true ↔ ph = .armedShort := by
  cases ph with
  | idle => simp [((phase_eq_idle_iff s).1 h).1]
  | armedShort => simp [((phase_eq_armedShort_iff s).1 h).1]
  | armedLong => simp [((phase_eq_armedLong_iff s).1 h).1]

/-- The LED is lit in both armed phases (R31, R129). -/
theorem ledLit_iff_of_phase {s : State} {ph : Phase} (h : s.phase = some ph) : s.ledLit = true ↔ ph ≠ .idle := by
  cases ph with
  | idle => simp [State.ledLit, ((phase_eq_idle_iff s).1 h).2.1]
  | armedShort => simp [State.ledLit, ((phase_eq_armedShort_iff s).1 h).2.1]
  | armedLong => simp [State.ledLit, ((phase_eq_armedLong_iff s).1 h).2.1]

theorem de_and_ledn_of_armedShort {s : State} (h : s.phase = some .armedShort) : s.de = true ∧ s.ledn = false := by
  obtain ⟨hde, hledn, -⟩ := (phase_eq_armedShort_iff s).1 h
  exact ⟨hde, hledn⟩

/-! ### Retriggering

Both inductions are over the gaps, and carry the phase that the last gap left: each edge starts the short phase anew. -/

/-- Edges with clocks alone between them. The clocks leave `PT` as it is, so one bound serves all gaps. -/
theorem runOps_edges_clocks {gaps : List Nat} {s : State} (hgaps : ∀ k ∈ gaps, k < pulseLength s.pt * params.prescale)
    (hs : gaps = [] → s.phase = some .armedShort) :
    ∃ t, runOps (gaps.flatMap fun k => [.edge, .clk k]) s = .next t ∧ t.phase = some .armedShort := by
  induction gaps generalizing s with
  | nil => exact ⟨s, rfl, hs rfl⟩
  | cons k gaps ih =>
    obtain ⟨hk, hrest⟩ := List.forall_mem_cons.1 hgaps
    have hpt : (clkSteps params k (hEdge s)).pt = s.pt := (clkSteps_frame params k (hEdge s)).pt
    rw [List.flatMap_cons, List.cons_append, List.cons_append, List.nil_append, runOps_cons (exec_edge s),
      runOps_cons (exec_clk k _)]
    exact ih (by rw [hpt]; exact hrest) fun _ => clkSteps_hEdge_phase_short hk

/-- An edge and a gap shorter than its pulse end in the short phase: the gap does to the timing elements what its clocks alone
do. -/
theorem runOps_edge_gap_phase {gap : List Instr} {s t : State} (hkind : ∀ i ∈ gap, i ≠ .edge ∧ i ≠ .rst)
    (hwd : watchdogHolds params s.wdc gap) (hclocks : clocksOf gap < pulseLength s.pt * params.prescale)
    (hrun : runOps (.edge :: gap) s = .next t) : t.phase = some .armedShort := by
  rw [runOps_cons (exec_edge s)] at hrun
  rw [phase_congr (runOps_timing (s := hEdge s) hkind hwd hrun rfl), clkSteps_hEdge_phase_short hclocks]

/-- Edges with other operations between them. -/
theorem runOps_edges_gaps_phase {gaps : List (List Instr)} {s t : State} (hgaps : gapsWithinPulse params gaps s)
    (hs : gaps = [] → s.phase = some .armedShort)
    (hrun : runOps (gaps.flatMap fun gap => .edge :: gap) s = .next t) : t.phase = some .armedShort := by
  induction gaps generalizing s with
  | nil => cases hrun; exact hs rfl
  | cons gap gaps ih =>
    obtain ⟨hkind, hwd, hclocks, hrest⟩ := hgaps
    rw [List.flatMap_cons] at hrun
    obtain ⟨u, hgap, hrun⟩ := runOps_append_next.1 hrun
    exact ih (hrest u hgap) (fun _ => runOps_edge_gap_phase hkind hwd hclocks hgap) hrun

/-! ### The statements -/

/-- Settles O16: the phase after `k` clocks decides both outputs. -/
theorem pulseShape : Obligations.PulseShape := by
  intro s k
  have hphase := clkSteps_hEdge_phase params s k
  have hlonger : pulseLength s.pt * params.prescale ≤ (pulseLength s.pt + 256) * params.prescale :=
    Nat.mul_le_mul_right _ (Nat.le_add_right _ _)
  refine ⟨_, _, exec_edge s, exec_clk k _, hphase, (de_iff_of_phase hphase).trans ?_,
    (ledLit_iff_of_phase hphase).trans ?_⟩
  · split
    case isTrue hk => simp [hk]
    case isFalse hk => split <;> simp [hk]
  · split
    case isTrue hk => simp [Nat.lt_of_lt_of_le hk hlonger]
    case isFalse => split <;> simp [*]

/-- Settles O20, by induction on the gaps. -/
theorem retriggerKeepsDriverEnabled : Obligations.RetriggerKeepsDriverEnabled := by
  intro s gaps hne hgaps
  obtain ⟨t, hrun, hphase⟩ := runOps_edges_clocks hgaps fun hnil => absurd hnil hne
  exact ⟨t, hrun, de_and_ledn_of_armedShort hphase⟩

/-- Settles O57, by induction on the gaps: between two edges only the clocks reach the timing elements. -/
theorem retriggerAmongOtherOperations : Obligations.RetriggerAmongOtherOperations :=
  fun _ _ _ hne hgaps hrun =>
    de_and_ledn_of_armedShort (runOps_edges_gaps_phase hgaps (fun hnil => absurd hnil hne) hrun)

/-- Settles O9. -/
theorem edgeStartsShortPhase : Obligations.EdgeStartsShortPhase :=
  fun s => ⟨hEdge s, exec_edge s, rfl, hEdge_phase s, by rw [exec_edge, hEdge_hEdge]⟩

/-- Settles O10. -/
theorem riseChangesNothing : Obligations.RiseChangesNothing := exec_rise

end Sys2Proof.Machine
end

section
/-! PROOFS. The Timing Engine (spec/41_timing_engine.md): one system clock, the timer with its interrupt masked, the overflow
that takes each phase to the next, and the clocks after which every state is in `IDLE`. -/

namespace Sys2Proof.Machine

open Sys2Proof.Config

/-! ### One system clock -/

@[simp] theorem clkSteps_one (p : Params) (s : State) : clkSteps p 1 s = clk1 p s := rfl

theorem overflowReady_eq_false_iff (s : State) : overflowReady s = false ↔ s.tov = false ∨ s.toie = false :=
  Bool.and_eq_false_iff

/-- Where the interrupt is enabled, a wrap or a flag already set leaves the clock with an interrupt to take. -/
theorem not_plain_tick {s : State} (htake : s.tcnt = 255#8 ∨ s.tov = true) (hen : s.toie = true) :
    ¬(s.tcnt ≠ 255#8 ∧ (s.tov = false ∨ s.toie = false)) := by
  rcases htake with hwrap | htov
  · exact fun hplain => hplain.1 hwrap
  · simp [htov, hen]

/-- The clock that completes the prescaler's period brings one tick, any other none (R90). -/
theorem ticks_of_clock {p : Params} {s : State} (hpsc : s.psc < p.prescale) :
    (s.psc + 1) / p.prescale = if s.psc = p.prescale - 1 then 1 else 0 := by
  split
  case isTrue hlast => rw [show s.psc + 1 = p.prescale by omega, Nat.div_self (prescale_pos p)]
  case isFalse hlast => exact Nat.div_eq_of_lt (by omega)

/-! ### The masked timer

With `TOIE = 0` no handler runs, so only the timer and its flag move (R93). -/

/-- The clock that overflows with the interrupt masked sets the flag and does nothing else (R93). -/
theorem clk1_of_masked_overflow {p : Params} {s : State} (hlast : s.psc = p.prescale - 1) (hwrap : s.tcnt = 255#8)
    (hmask : s.toie = false) : clk1 p s = { s with psc := 0, tcnt := 0#8, tov := true } := by
  rcases clk1_cases p s with ⟨hne, -⟩ | ⟨-, hne, -⟩ | ⟨-, -, -, hclk⟩ | ⟨-, -, hen, -⟩ | ⟨-, -, hen, -⟩
  · exact absurd hlast hne
  · exact absurd hwrap hne
  · exact hclk
  · exact absurd hen (by simp [hmask])
  · exact absurd hen (by simp [hmask])

/-- A masked clock sets the flag exactly when its tick carries the counter past 255. -/
theorem clk1_masked_tov {p : Params} {s : State} (hpsc : s.psc < p.prescale) (hmask : s.toie = false) :
    (clk1 p s).tov = (s.tov || decide (256 ≤ s.tcnt.toNat + (s.psc + 1) / p.prescale)) := by
  rw [ticks_of_clock hpsc]
  by_cases hover : s.psc = p.prescale - 1 ∧ s.tcnt = 255#8
  · obtain ⟨hlast, hwrap⟩ := hover
    rw [clk1_of_masked_overflow hlast hwrap hmask, if_pos hlast, hwrap]
    simp
  · have hcount (hlast : s.psc = p.prescale - 1) : s.tcnt ≠ 255#8 := fun hwrap => hover ⟨hlast, hwrap⟩
    have hbelow : ¬ 256 ≤ s.tcnt.toNat + if s.psc = p.prescale - 1 then 1 else 0 := by
      split
      case isTrue hlast => have hne := hcount hlast; bv_omega
      case isFalse => exact Nat.not_le.2 s.tcnt.isLt
    rw [clk1_of_no_overflow ((overflowReady_eq_false_iff s).2 (.inr hmask)) hcount, decide_eq_false hbelow,
      Bool.or_false]

theorem clkSteps_masked_frame (p : Params) (k : Nat) {s : State} (hmask : s.toie = false) :
    clkSteps p k s =
      { s with psc := (clkSteps p k s).psc, tcnt := (clkSteps p k s).tcnt, tov := (clkSteps p k s).tov } := by
  induction k with
  | zero => rfl
  | succ k ih =>
    rw [clkSteps_succ_last]
    generalize clkSteps p k s = u at *
    obtain ⟨c, v, n, hclk⟩ := clk1_masked p (s := u) (by rw [ih]; exact hmask)
    rw [hclk, ih]

/-- A byte counter that goes `a` ticks and then `b` more has wrapped if it did so in the first `a`, or in the last `b` from
where those left it. -/
theorem decide_wrapped_add (a b : Nat) :
    decide (256 ≤ a + b) = (decide (256 ≤ a) || decide (256 ≤ a % 256 + b)) := by
  rw [← Bool.decide_or, decide_eq_decide]
  omega

/-- The first wrap sets the flag, and it stays set (R93), by induction on the clocks. -/
theorem clkSteps_masked_tov {p : Params} {s : State} (hpsc : s.psc < p.prescale) (hmask : s.toie = false) (k : Nat) :
    (clkSteps p k s).tov = (s.tov || decide (256 ≤ s.tcnt.toNat + (s.psc + k) / p.prescale)) := by
  induction k with
  | zero =>
    have hbelow : ¬ 256 ≤ s.tcnt.toNat := Nat.not_le.2 s.tcnt.isLt
    simp [Nat.div_eq_of_lt hpsc, hbelow]
  | succ k ih =>
    obtain ⟨hphase, hcount⟩ := clkSteps_psc_tcnt hpsc k
    have hlt : (clkSteps p k s).psc < p.prescale := by rw [hphase]; exact Nat.mod_lt _ (prescale_pos p)
    have hmask' : (clkSteps p k s).toie = false := by rw [clkSteps_masked_frame p k hmask]; exact hmask
    have hnat : (clkSteps p k s).tcnt.toNat = (s.tcnt.toNat + (s.psc + k) / p.prescale) % 256 := by
      rw [hcount, BitVec.toNat_add, BitVec.toNat_ofNat, Nat.add_mod_mod]
    rw [clkSteps_succ_last, clk1_masked_tov hlt hmask', ih, hnat, hphase, Bool.or_assoc, ← Nat.add_assoc s.psc,
      add_one_div_eq (s.psc + k) _ (prescale_pos p), ← Nat.add_assoc s.tcnt.toNat, ← decide_wrapped_add]

/-! ### The overflow and the phases -/

@[simp] theorem hOvf_tcnt (s : State) : (hOvf s).tcnt = s.tcnt := by
  cases h : s.de <;> simp [hOvf, h]

@[simp] theorem hOvf_psc (s : State) : (hOvf s).psc = s.psc := by
  cases h : s.de <;> simp [hOvf, h]

@[simp] theorem hOvf_tov (s : State) : (hOvf s).tov = false := by
  cases h : s.de <;> simp [hOvf, h]

/-- The overflow column of R96: the masked wrap of `IDLE`, and `H_OVF` in its two forms. -/
theorem clk1_overflow_phase {p : Params} {s : State} {ph : Phase} (h : s.phase = some ph)
    (hlast : s.psc = p.prescale - 1) (hwrap : s.tcnt = 255#8) :
    (clk1 p s).phase = some ph.onOverflow ∧ (clk1 p s).tcnt = 0#8 ∧ ((clk1 p s).tov = true ↔ ph = .idle) := by
  cases ph with
  | idle =>
    obtain ⟨-, -, hmask⟩ := (phase_eq_idle_iff s).1 h
    rw [clk1_of_masked_overflow hlast hwrap hmask]
    exact ⟨h, rfl, by simp⟩
  | armedShort =>
    obtain ⟨-, -, hen⟩ := (phase_eq_armedShort_iff s).1 h
    rw [clk1_of_overflow hlast hwrap hen]
    exact ⟨hOvf_phase_of_armedShort h, by simp, by simp⟩
  | armedLong =>
    obtain ⟨-, -, hen⟩ := (phase_eq_armedLong_iff s).1 h
    rw [clk1_of_overflow hlast hwrap hen]
    exact ⟨hOvf_phase_of_armedLong h, by simp, by simp⟩

theorem clk1_phase_of_no_overflow {p : Params} {s : State} (hready : overflowReady s = false)
    (hcount : s.psc = p.prescale - 1 → s.tcnt ≠ 255#8) : (clk1 p s).phase = s.phase := by
  rw [clk1_of_no_overflow hready hcount]; rfl

/-! ### Termination -/

/-- With the interrupt enabled, 256 ticks contain the overflow, wherever the timer stands, and what follows it starts from a
timer at 0. -/
theorem clkSteps_past_overflow {p : Params} {s : State} {k m : Nat} (hpsc : s.psc < p.prescale) (htov : s.tov = false)
    (hen : s.toie = true) (hk : 256 * p.prescale + m ≤ k) :
    ∃ j, m ≤ j ∧ clkSteps p k s = clkSteps p j (hOvf { s with psc := 0, tcnt := 0#8 }) := by
  have hshort : p.prescale ≤ pulseLength s.tcnt * p.prescale := Nat.le_mul_of_pos_left _ (pulseLength_pos _)
  have hlong : pulseLength s.tcnt * p.prescale ≤ 256 * p.prescale := Nat.mul_le_mul_right _ (Nat.sub_le _ _)
  obtain ⟨n, hn⟩ : ∃ n, s.psc + n = pulseLength s.tcnt * p.prescale := ⟨_, Nat.add_sub_of_le (by omega)⟩
  refine ⟨k - n, by omega, ?_⟩
  rw [← clkSteps_of_overflow hpsc htov hen hn, ← clkSteps_add, Nat.add_sub_of_le (by omega)]

/-- One overflow ends the long phase, and two the short one (R99). -/
theorem clkSteps_terminates {p : Params} {s : State} {k : Nat} (hinv : s.Inv p) (hk : 512 * p.prescale ≤ k) :
    (clkSteps p k s).phase = some .idle := by
  have htov (hen : s.toie = true) : s.tov = false :=
    ((overflowReady_eq_false_iff s).1 hinv.no_untaken).resolve_right (by simp [hen])
  have hperiods : 256 * p.prescale + 256 * p.prescale ≤ k := by omega
  obtain ⟨ph, hph⟩ := Option.ne_none_iff_exists'.1 hinv.phase_legal
  cases ph with
  | idle => exact clkSteps_phase_of_idle p k hph
  | armedShort =>
    obtain ⟨-, -, hen⟩ := (phase_eq_armedShort_iff s).1 hph
    obtain ⟨j, hj, hsteps⟩ := clkSteps_past_overflow hinv.psc_lt (htov hen) hen hperiods
    have hlong : (hOvf { s with psc := 0, tcnt := 0#8 }).phase = some .armedLong := hOvf_phase_of_armedShort hph
    rw [hsteps, clkSteps_phase_of_armedLong hlong (hOvf_tcnt _) (hOvf_psc _) (hOvf_tov _), if_neg (Nat.not_lt.2 hj)]
  | armedLong =>
    obtain ⟨-, -, hen⟩ := (phase_eq_armedLong_iff s).1 hph
    obtain ⟨j, -, hsteps⟩ := clkSteps_past_overflow hinv.psc_lt (htov hen) hen hperiods
    rw [hsteps]
    exact clkSteps_phase_of_idle p j (hOvf_phase_of_armedLong hph)

/-! ### The statements -/

/-- Settles O15, by induction on the clocks: the flag carries whether the counter has wrapped so far. -/
theorem maskedTimerOnlySetsItsFlag : Obligations.MaskedTimerOnlySetsItsFlag := by
  intro k s hpsc hmask
  obtain ⟨hphase, hcount⟩ := clkSteps_psc_tcnt hpsc k
  rw [exec_clk, clkSteps_masked_frame params k hmask, hphase, hcount, clkSteps_masked_tov hpsc hmask k]

/-- Settles O17. -/
theorem longPhaseIsOneFullTimerPeriod : Obligations.LongPhaseIsOneFullTimerPeriod :=
  fun s k hph htcnt hpsc htov => ⟨_, exec_clk k s, clkSteps_phase_of_armedLong hph htcnt hpsc htov k⟩

/-- Settles O18. -/
theorem timerTerminatesInIdle : Obligations.TimerTerminatesInIdle :=
  fun s k hinv hk => ⟨_, exec_clk k s, clkSteps_terminates hinv hk⟩

/-- Settles O12: the five results of a clock, each under its condition in the chain. -/
theorem oneClockResult : Obligations.OneClockResult := by
  intro s
  rw [exec_clk, clkSteps_one]
  rcases clk1_cases params s with ⟨hcount, hclk⟩ | ⟨hlast, hne, hready, hclk⟩ | ⟨hlast, hwrap, hmask, hclk⟩ |
    ⟨hlast, htake, hen, hde, hclk⟩ | ⟨hlast, htake, hen, hde, hclk⟩ <;> rw [hclk]
  · rw [if_pos hcount]
  · rw [if_neg (not_not_intro hlast), if_pos ⟨hne, (overflowReady_eq_false_iff s).1 hready⟩]
  · rw [if_neg (not_not_intro hlast), if_neg fun hplain => hplain.1 hwrap, if_pos hmask]
  · rw [if_neg (not_not_intro hlast), if_neg (not_plain_tick htake hen), if_neg (by simp [hen]), if_pos hde]
  · rw [if_neg (not_not_intro hlast), if_neg (not_plain_tick htake hen), if_neg (by simp [hen]), if_neg (by simp [hde])]

/-- Settles O13. -/
theorem clkCountsAdd : Obligations.ClkCountsAdd :=
  fun n m s => ⟨exec_clk 0 s, _, exec_clk n s, by rw [exec_clk, exec_clk, clkSteps_add]⟩

/-- Settles O19: the clock that wraps the counter, and any other. -/
theorem phaseTransitionsOnClock : Obligations.PhaseTransitionsOnClock := by
  intro s ph hph hready
  constructor
  · intro hlast hwrap
    exact ⟨_, exec_clk 1 s, clk1_overflow_phase hph hlast hwrap⟩
  · intro hno
    refine ⟨_, exec_clk 1 s, (clk1_phase_of_no_overflow hready fun hlast => ?_).trans hph⟩
    exact hno.resolve_left (not_not_intro hlast)

end Sys2Proof.Machine
end

section
/-! PROOFS. The Calibration Subsystem (spec/42_calibration.md): a conversion and the service pass that takes its sample, the
pulse it gives, and the default reload value while no conversion completes. -/

namespace Sys2Proof.Machine

open Sys2Proof.Config

/-! ### A service pass and the converter -/

/-- No sample waits after a pass: one that waited has been consumed (R114). -/
theorem servicePass_adif (s : State) : (servicePass s).adif = false := by
  rcases servicePass_cases s with ⟨-, hpass⟩ | ⟨hnone, hpass⟩ <;> rw [hpass]
  exact hnone

/-- Consuming a sample starts the next conversion (R114). -/
theorem servicePass_adbusy_of_adif {s : State} (h : s.adif = true) : (servicePass s).adbusy = true := by
  rw [servicePass, calPoll, if_pos h]

/-! ### The pulse of a sample -/

theorem reload_memRead_toNat (i : TickIdx) : (reload (memRead i)).toNat = 256 - (memRead i).toNat :=
  reload_toNat_of_ne (memRead_ne_zero i)

/-- No entry is 0, so the pulse length of an entry's reload value is the entry. -/
theorem pulseLength_reload_memRead (i : TickIdx) : pulseLength (reload (memRead i)) = (memRead i).toNat :=
  (reloadValueInverts (memRead i)).2 (memRead_ne_zero i)

/-- The driver is enabled as long as the reload value that the edge loaded says (R97): `pulseShape`, its two operations
applied. -/
theorem clkSteps_hEdge_de (s : State) (k : Nat) :
    (clkSteps params k (hEdge s)).de = true ↔ k < pulseLength s.pt * params.prescale := by
  obtain ⟨_, _, hedge, hclk, -, hde, -⟩ := pulseShape s k
  rw [exec_edge] at hedge
  cases hedge
  cases hclk
  exact hde

theorem clkSteps_hEdge_pt (p : Params) (s : State) (k : Nat) : (clkSteps p k (hEdge s)).pt = s.pt :=
  (clkSteps_frame p k (hEdge s)).pt

theorem runOps_adcc_svc_edge_clk {s : State} (v : Sample) (k : Nat) (h : s.adbusy = true) :
    runOps [.adcc v, .svc, .edge, .clk k] s =
      .next (clkSteps params k (hEdge (servicePass (latchSample v s)))) :=
  runOps_append_next.2 ⟨_, runOps_adcc_svc_edge v h, runOps_cons (exec_clk k _)⟩

/-! ### The default reload value -/

/-- No sample waits and the reload value is the default of R119. -/
structure State.AtDefault (s : State) : Prop where
  adif : s.adif = false
  pt : s.pt = 250#8

theorem doReset_atDefault (s : State) : (doReset s).AtDefault := ⟨rfl, rfl⟩

/-- The watchdog's reset sets the default again; other watchdog clocks reach neither element. -/
theorem wd1_atDefault (p : Params) {s : State} (h : s.AtDefault) : (wd1 p s).AtDefault := by
  rcases wd1_cases p s with ⟨-, hwd⟩ | ⟨-, hwd⟩ | ⟨-, -, hwd⟩ <;> rw [hwd]
  case inl => exact doReset_atDefault s
  all_goals exact { h with }

/-- Without a sample the poll does nothing (R113). -/
theorem servicePass_atDefault {s : State} (h : s.AtDefault) : (servicePass s).AtDefault :=
  ⟨servicePass_adif s, (servicePass_pt_of_not_adif h.adif).trans h.pt⟩

/-- Every operation but `ADCC` keeps the default (R113). -/
theorem exec_atDefault {i : Instr} {s t : State} (hkind : ∀ v : Sample, i ≠ .adcc v) (h : s.AtDefault)
    (hexec : exec i s = .next t) : t.AtDefault := by
  rcases exec_next_cases hexec with ⟨n, rfl, rfl⟩ | ⟨rfl, rfl⟩ | ⟨rfl, rfl⟩ | ⟨v, rfl, -, rfl⟩ | ⟨n, rfl, rfl⟩ |
    ⟨rfl, -, rfl⟩ | ⟨rfl, rfl⟩
  · have hframe := clkSteps_frame params n s
    exact ⟨hframe.adif.trans h.adif, hframe.pt.trans h.pt⟩
  · exact { h with }
  · exact h
  · exact absurd rfl (hkind v)
  · exact wdSteps_preserve params (P := State.AtDefault) (fun _ => wd1_atDefault params) n h
  · exact servicePass_atDefault h
  · exact doReset_atDefault s

theorem runOps_atDefault {is : List Instr} {s t : State} (hkind : ∀ i ∈ is, ∀ v : Sample, i ≠ .adcc v)
    (h : s.AtDefault) (hrun : runOps is s = .next t) : t.AtDefault :=
  runOps_preserve (Q := fun i => ∀ v : Sample, i ≠ .adcc v) (fun _ _ _ => exec_atDefault) hkind h hrun

/-! ### The statements -/

/-- Settles O29: the pass writes the reload value of the sample's entry, the edge loads it, and the clocks leave it as it is. -/
theorem everyIndexGivesItsPulse : Obligations.EveryIndexGivesItsPulse := by
  intro v s k hbusy
  have hpt : (servicePass (latchSample v s)).pt = reload (memRead (calIndex v)) := servicePass_pt_of_adif rfl
  refine ⟨_, runOps_adcc_svc_edge_clk v k hbusy, ?_, ?_⟩
  · rw [clkSteps_hEdge_pt, hpt, reload_memRead_toNat]
  · rw [clkSteps_hEdge_de, hpt, pulseLength_reload_memRead]

/-- Settles O32: every operation but `ADCC` keeps the default, by induction on the operations. -/
theorem noConversionKeepsDefault : Obligations.NoConversionKeepsDefault := by
  intro is s t hkind hadif hpt hrun
  obtain ⟨hadif', hpt'⟩ := runOps_atDefault hkind ⟨hadif, hpt⟩ hrun
  exact ⟨hadif', hpt'⟩

/-- Settles O22. -/
theorem adccLatchesSample : Obligations.AdccLatchesSample :=
  fun v _ h => exec_adcc_of_adbusy v h

/-- Settles O23: an `ADCC` that answers leaves no conversion in progress. -/
theorem adccNeedsConversionInProgress : Obligations.AdccNeedsConversionInProgress := by
  intro v w s
  refine ⟨fun hidle => exec_adcc_refused.2 ⟨hidle, rfl⟩, fun t hexec => ?_⟩
  obtain ⟨-, rfl⟩ := exec_adcc_next.1 hexec
  exact exec_adcc_refused.2 ⟨latchSample_adbusy v s, rfl⟩

/-- Settles O27: with a sample waiting, and without. -/
theorem servicePassResult : Obligations.ServicePassResult := by
  intro s hawake
  rw [exec_svc_of_awake hawake]
  rcases servicePass_cases s with ⟨hadif, hpass⟩ | ⟨hadif, hpass⟩ <;> rw [hpass]
  · rw [if_pos hadif]
    rfl
  · rw [if_neg (by simp [hadif])]

/-- Settles O31: the first pass starts the conversion that the second `ADCC` completes, and each pass consumes its sample. -/
theorem latestConversionWins : Obligations.LatestConversionWins := by
  intro v w s hbusy
  have hbusy' : (servicePass (latchSample v s)).adbusy = true := servicePass_adbusy_of_adif rfl
  exact ⟨_, runOps_append_next.2 ⟨_, runOps_adcc_svc v hbusy, runOps_adcc_svc w hbusy'⟩, servicePass_pt_of_adif rfl,
    servicePass_adbusy_of_adif rfl, servicePass_adif _⟩

end Sys2Proof.Machine
end

section
/-! PROOFS. The Driver/LED Controller (spec/43_driver_led.md): containment of the driver's interval in the LED's, and the edge
as the only cause of either output. -/

namespace Sys2Proof.Machine

open Sys2Proof.Config

/-! ### What each operation does to the timing elements -/

/-- Watchdog clocks reach the timing elements through the watchdog's reset alone (R141). -/
theorem wdSteps_timing_cases (p : Params) (n : Nat) (s : State) :
    (wdSteps p n s).timing = s.timing ∨ (wdSteps p n s).timing = State.reset.timing := by
  refine wdSteps_preserve p (P := fun t => t.timing = s.timing ∨ t.timing = State.reset.timing) (fun t ht => ?_) n (.inl rfl)
  rcases wd1_cases p t with ⟨-, hwd⟩ | ⟨-, hwd⟩ | ⟨-, -, hwd⟩ <;> rw [hwd]
  case inl => exact .inr rfl
  all_goals exact ht

/-- `CLK` and `EDGE` apart, an operation leaves the timing elements alone or gives them their reset values (R25). -/
theorem exec_timing_cases {i : Instr} {s t : State} (hexec : exec i s = .next t) :
    (∃ n, i = .clk n ∧ t = clkSteps params n s) ∨ (i = .edge ∧ t = hEdge s) ∨
      t.timing = s.timing ∨ t.timing = State.reset.timing := by
  rcases exec_next_cases hexec with hclk | hedge | ⟨-, rfl⟩ | ⟨v, -, -, rfl⟩ | ⟨n, -, rfl⟩ | ⟨-, -, rfl⟩ | ⟨-, rfl⟩
  · exact .inl hclk
  · exact .inr (.inl hedge)
  · exact .inr (.inr (.inl rfl))
  · exact .inr (.inr (.inl rfl))
  · exact .inr (.inr (wdSteps_timing_cases params n s))
  · exact .inr (.inr (.inl (servicePass_timing s)))
  · exact .inr (.inr (.inr rfl))

/-! ### Containment -/

theorem contained_congr {s t : State} (h : s.timing = t.timing) : s.contained = t.contained := by
  obtain ⟨-, hde, hledn, -, -, -⟩ := State.timing_eq_iff.1 h
  rw [State.contained, State.contained, hde, hledn]

/-- The first form of `H_OVF` disables the driver; the second puts the LED out with the driver disabled already (R94). -/
theorem clk1_contained (p : Params) {s : State} (h : s.contained = true) : (clk1 p s).contained = true := by
  rcases clk1_cases p s with ⟨-, hclk⟩ | ⟨-, -, -, hclk⟩ | ⟨-, -, -, hclk⟩ | ⟨-, -, -, -, hclk⟩ | ⟨-, -, -, hde, hclk⟩ <;>
    rw [hclk]
  case inl => exact h
  case inr.inl => exact h
  case inr.inr.inl => exact h
  case inr.inr.inr.inl => rfl
  case inr.inr.inr.inr => simp [State.contained, hde]

theorem exec_contained {i : Instr} {s t : State} (h : s.contained = true) (hexec : exec i s = .next t) :
    t.contained = true := by
  rcases exec_timing_cases hexec with ⟨n, -, rfl⟩ | ⟨-, rfl⟩ | hsame | hreset
  · exact clkSteps_preserve params (P := fun u => u.contained = true) (fun _ => clk1_contained params) n h
  · rfl
  · rw [contained_congr hsame, h]
  · rw [contained_congr hreset]; rfl

/-! ### Without an edge the outputs only go back to their idle values -/

/-- From `s` to `t` the outputs and the interrupt enable move towards their values in `IDLE` or stay. -/
structure Releases (s t : State) : Prop where
  de_falls : t.de = true → s.de = true
  ledn_rises : s.ledn = true → t.ledn = true
  toie_falls : t.toie = true → s.toie = true

theorem Releases.of_timing_eq {s t : State} (h : t.timing = s.timing) : Releases s t := by
  obtain ⟨-, hde, hledn, htoie, -, -⟩ := State.timing_eq_iff.1 h
  exact ⟨hde.symm.trans, hledn.trans, htoie.symm.trans⟩

theorem Releases.of_timing_eq_reset (s : State) {t : State} (h : t.timing = State.reset.timing) : Releases s t := by
  obtain ⟨-, hde, hledn, htoie, -, -⟩ := State.timing_eq_iff.1 h
  exact ⟨by simp [hde, State.reset], fun _ => hledn, by simp [htoie, State.reset]⟩

theorem exec_releases {i : Instr} {s t : State} (hedge : i ≠ .edge) (hexec : exec i s = .next t) : Releases s t := by
  rcases exec_timing_cases hexec with ⟨n, -, rfl⟩ | ⟨hi, -⟩ | hsame | hreset
  · have hframe := clkSteps_frame params n s
    exact ⟨hframe.de_falls, hframe.ledn_rises, hframe.toie_falls⟩
  · exact absurd hi hedge
  · exact .of_timing_eq hsame
  · exact .of_timing_eq_reset s hreset

theorem Releases.idle {s t : State} (h : Releases s t) (hidle : s.phase = some .idle) : t.phase = some .idle := by
  obtain ⟨hde, hledn, htoie⟩ := (phase_eq_idle_iff s).1 hidle
  exact (phase_eq_idle_iff t).2
    ⟨by simpa [hde] using h.de_falls, h.ledn_rises hledn, by simpa [htoie] using h.toie_falls⟩

theorem outputs_of_idle {s : State} (h : s.phase = some .idle) : s.outputs = ⟨false, true⟩ := by
  obtain ⟨hde, hledn, -⟩ := (phase_eq_idle_iff s).1 h
  rw [State.outputs, hde, hledn]

/-! ### The statements -/

/-- Settles O42: containment speaks of no word of the trace, and every operation keeps it, so a list of operations does. -/
theorem driverEnabledOnlyWithLedLit : Obligations.DriverEnabledOnlyWithLedLit := by
  refine ⟨fun s t hs hstep => ?_, fun is t hrun => ?_⟩
  · obtain ⟨i, rest, -, hexec⟩ := step_next hstep
    exact exec_contained (s := { s with trace := rest }) hs hexec
  · exact runOps_preserve (P := fun u => u.contained = true) (Q := fun _ => True) (fun _ _ _ _ => exec_contained)
      (fun _ _ => trivial) (s := State.reset) rfl hrun

/-- Settles O46: any other operation only releases the outputs. -/
theorem onlyEdgeAssertsOutputs : Obligations.OnlyEdgeAssertsOutputs := by
  intro i s t hexec hassert
  by_contra hedge
  have hrel := exec_releases hedge hexec
  rcases hassert with ⟨hs, ht⟩ | ⟨hs, ht⟩
  · exact absurd (hrel.de_falls ht) (by simp [hs])
  · exact absurd (hrel.ledn_rises hs) (by simp [ht])

/-- Settles O48: operations that only release the outputs keep `IDLE`, by induction on the list. -/
theorem noEdgeNoPulse : Obligations.NoEdgeNoPulse := by
  intro is s t hkind hidle hrun
  have ht : t.phase = some .idle :=
    runOps_preserve (P := fun u => u.phase = some .idle) (Q := (· ≠ .edge))
      (fun _ _ _ hedge hs hexec => (exec_releases hedge hexec).idle hs) hkind hidle hrun
  exact ⟨ht, outputs_of_idle ht⟩

end Sys2Proof.Machine
end

section
/-! PROOFS. The Power Supervisor (spec/44_power_supervisor.md): the watchdog's count, its wake and its reset, the service pass
that answers it, and sleep, which stops nothing else. -/

namespace Sys2Proof.Machine

open Sys2Proof.Config

/-! ### One watchdog clock, case by case (R141) -/

@[simp] theorem wdSteps_one (p : Params) (s : State) : wdSteps p 1 s = wd1 p s := rfl

theorem wdSteps_succ_last (p : Params) (n : Nat) (s : State) : wdSteps p (n + 1) s = wd1 p (wdSteps p n s) :=
  wdSteps_add p n 1 s

theorem wd1_at_wRst {p : Params} {s : State} (h : s.wdc + 1 = p.wRst) : wd1 p s = doReset s := if_pos h

theorem wd1_at_wInt {p : Params} {s : State} (h : s.wdc + 1 = p.wInt) :
    wd1 p s = { s with wdc := s.wdc + 1, awake := true } := by
  have hlt := wInt_lt_wRst p
  rw [wd1, if_neg (by omega), if_pos h]
  rfl

theorem wd1_elsewhere {p : Params} {s : State} (hrst : s.wdc + 1 ≠ p.wRst) (hint : s.wdc + 1 ≠ p.wInt) :
    wd1 p s = { s with wdc := s.wdc + 1 } := by
  rw [wd1, if_neg hrst, if_neg hint]

/-! ### Many watchdog clocks -/

/-- The count short of `W_RST`, with the wake that `wdSteps_of_lt` leaves open: it comes from passing `W_INT`. -/
theorem wdSteps_below_wRst {p : Params} {n : Nat} {s : State} (h : s.wdc + n < p.wRst) :
    wdSteps p n s =
      { s with wdc := s.wdc + n, awake := s.awake || decide (s.wdc < p.wInt ∧ p.wInt ≤ s.wdc + n) } := by
  induction n with
  | zero =>
    have hno : ¬ (s.wdc < p.wInt ∧ p.wInt ≤ s.wdc + 0) := by omega
    rw [decide_eq_false hno, Bool.or_false]
    rfl
  | succ n ih =>
    rw [wdSteps_succ_last, ih (by omega)]
    by_cases hint : s.wdc + n + 1 = p.wInt
    · have hpassed : s.wdc < p.wInt ∧ p.wInt ≤ s.wdc + (n + 1) := by omega
      rw [wd1_at_wInt hint, decide_eq_true hpassed, Bool.or_true]
      rfl
    · have hsame : (s.wdc < p.wInt ∧ p.wInt ≤ s.wdc + (n + 1)) ↔ (s.wdc < p.wInt ∧ p.wInt ≤ s.wdc + n) := by omega
      rw [wd1_elsewhere (show s.wdc + n + 1 ≠ p.wRst by omega) hint, decide_eq_decide.2 hsame]
      rfl

/-- A count below `W_RST` ends in a reset, whatever the state was (R143). -/
theorem wdSteps_to_wRst {p : Params} {s : State} (h : s.wdc < p.wRst) : wdSteps p (p.wRst - s.wdc) s = doReset s := by
  obtain ⟨k, hk⟩ : ∃ k, p.wRst = s.wdc + k + 1 := ⟨p.wRst - s.wdc - 1, by omega⟩
  rw [show p.wRst - s.wdc = k + 1 by omega, wdSteps_succ_last, wdSteps_below_wRst (by omega), wd1_at_wRst hk.symm]
  rfl

/-- Nobody serving the watchdog, it resets again after every `W_RST` watchdog clocks. -/
theorem wdSteps_doReset_periods (p : Params) (q : Nat) (s : State) : wdSteps p (p.wRst * q) (doReset s) = doReset s := by
  have hpos : (doReset s).wdc < p.wRst := (wInt_pos p).trans (wInt_lt_wRst p)
  induction q with
  | zero => rfl
  | succ q ih => rw [Nat.mul_succ, wdSteps_add, ih]; exact wdSteps_to_wRst hpos

/-- After a reset the watchdog counts from 0 modulo `W_RST`, and has woken the supervisor since its last reset if that count
has reached `W_INT`. -/
theorem wdSteps_doReset (p : Params) (n : Nat) (s : State) :
    wdSteps p n (doReset s) =
      { doReset s with wdc := n % p.wRst, awake := decide (p.wInt ≤ n % p.wRst) } := by
  have hint := wInt_pos p
  have hlt : n % p.wRst < p.wRst := Nat.mod_lt _ (hint.trans (wInt_lt_wRst p))
  conv_lhs => rw [← Nat.div_add_mod n p.wRst, wdSteps_add, wdSteps_doReset_periods]
  rw [wdSteps_below_wRst (by rwa [doReset_wdc, Nat.zero_add])]
  simp [hint]

/-- From `W_RST` on: a reset, and what is left of the watchdog clocks after it. -/
theorem wdSteps_from_wRst {p : Params} {n : Nat} {s : State} (h : s.wdc < p.wRst) (hrst : p.wRst ≤ s.wdc + n) :
    wdSteps p n s =
      { doReset s with
        wdc := (s.wdc + n) % p.wRst
        awake := decide (p.wInt ≤ (s.wdc + n) % p.wRst) } := by
  obtain ⟨m, hm⟩ : ∃ m, n = p.wRst - s.wdc + m := ⟨n - (p.wRst - s.wdc), by omega⟩
  rw [hm, wdSteps_add, wdSteps_to_wRst h, wdSteps_doReset, show s.wdc + (p.wRst - s.wdc + m) = p.wRst + m by omega,
    Nat.add_mod_left]

/-! ### The supervisor is awake from the `W_INT`-th watchdog clock on -/

/-- Clause `watchdog_awake` of the invariant, alone: unlike the invariant it holds of every state whose watchdog is cleared. -/
def State.WatchdogAwake (p : Params) (s : State) : Prop := p.wInt ≤ s.wdc → s.awake = true

theorem watchdogAwake_of_wdc_eq_zero (p : Params) {s : State} (h : s.wdc = 0) : s.WatchdogAwake p :=
  fun hle => absurd (wInt_pos p) (by omega)

theorem wd1_watchdogAwake {p : Params} {s : State} (h : s.WatchdogAwake p) : (wd1 p s).WatchdogAwake p := by
  rcases wd1_cases p s with ⟨-, hwd⟩ | ⟨-, hwd⟩ | ⟨-, hint, hwd⟩ <;> rw [hwd]
  · exact watchdogAwake_of_wdc_eq_zero p rfl
  · exact fun _ => rfl
  · exact fun hle => h (by have : p.wInt ≤ s.wdc + 1 := hle; omega)

/-- Every operation keeps it: the handlers and `ADCC` only wake, and what lets the supervisor sleep clears the watchdog. -/
theorem exec_watchdogAwake {i : Instr} {s t : State} (h : s.WatchdogAwake params) (hexec : exec i s = .next t) :
    t.WatchdogAwake params := by
  rcases exec_next_cases hexec with ⟨n, -, rfl⟩ | ⟨-, rfl⟩ | ⟨-, rfl⟩ | ⟨v, -, -, rfl⟩ | ⟨n, -, rfl⟩ | ⟨-, -, rfl⟩ | ⟨-, rfl⟩
  · have hframe := clkSteps_frame params n s
    exact fun hle => hframe.awake_rises (h (hframe.wdc ▸ hle))
  · exact fun _ => rfl
  · exact h
  · exact fun _ => rfl
  · exact wdSteps_preserve params (P := State.WatchdogAwake params) (fun _ => wd1_watchdogAwake) n h
  · exact watchdogAwake_of_wdc_eq_zero params (servicePass_wdc s)
  · exact watchdogAwake_of_wdc_eq_zero params rfl

theorem runOps_watchdogAwake {is : List Instr} {s t : State} (h : s.WatchdogAwake params) (hrun : runOps is s = .next t) :
    t.WatchdogAwake params :=
  runOps_preserve (Q := fun _ => True) (fun _ _ _ _ => exec_watchdogAwake) (fun _ _ => trivial) h hrun

/-- Operations that neither serve nor reset add their watchdog clocks to the count, as long as it stays short of `W_RST`. -/
theorem runOps_wdc {is : List Instr} {s t : State} (hkind : ∀ i ∈ is, i ≠ .svc ∧ i ≠ .rst)
    (hlt : s.wdc + watchdogClocksOf is < params.wRst) (hrun : runOps is s = .next t) :
    t.wdc = s.wdc + watchdogClocksOf is := by
  induction is generalizing s with
  | nil => cases hrun; rfl
  | cons i is ih =>
    obtain ⟨⟨hsvc, hrst⟩, hrest⟩ := List.forall_mem_cons.1 hkind
    obtain ⟨u, hexec, hrun⟩ := runOps_cons_next.1 hrun
    cases i with
    | wdck n =>
      rw [watchdogClocksOf, ← Nat.add_assoc] at hlt ⊢
      cases hexec
      have hwdc : (wdSteps params n s).wdc = s.wdc + n := by rw [wdSteps_below_wRst (by omega)]
      rw [← hwdc] at hlt ⊢
      exact ih hrest hlt hrun
    | clk n =>
      cases hexec
      have hwdc := clkSteps_wdc params n s
      rw [← hwdc] at hlt ⊢
      exact ih hrest hlt hrun
    | edge =>
      rw [exec_edge] at hexec
      cases hexec
      exact ih (s := hEdge s) hrest hlt hrun
    | rise => cases hexec; exact ih hrest hlt hrun
    | adcc v =>
      obtain ⟨-, rfl⟩ := exec_adcc_next.1 hexec
      exact ih (s := latchSample v s) hrest hlt hrun
    | svc => exact absurd rfl hsvc
    | rst => exact absurd rfl hrst

/-! ### A serviced watchdog (R144) -/

/-- The watchdog wakes a sleeping supervisor, whose pass finds no sample, clears the count and sleeps again. -/
theorem runOps_wdck_svc {n : Nat} {s : State} (hwdc : s.wdc = 0) (hadif : s.adif = false) (hasleep : s.awake = false)
    (hint : params.wInt ≤ n) (hrst : n < params.wRst) (is : List Instr) :
    runOps (.wdck n :: .svc :: is) s = runOps is s := by
  have hwake : wdSteps params n s = { s with wdc := n, awake := true } := by
    rw [wdSteps_below_wRst (by omega), hwdc, Nat.zero_add, decide_eq_true ⟨wInt_pos params, hint⟩, Bool.or_true]
  have hpass : servicePass { s with wdc := n, awake := true } = s := by
    rcases servicePass_cases { s with wdc := n, awake := true } with ⟨hwaits, -⟩ | ⟨-, hpass⟩
    · exact absurd hwaits (by simp [hadif])
    · rw [hpass, ← hwdc, ← hasleep]
  rw [runOps_cons (exec_wdck n s), hwake, runOps_cons (exec_svc_of_awake rfl), hpass]

/-! ### States that differ at most in `AWAKE` -/

/-- Two states agree on everything but `AWAKE`. -/
def SameButAwake (s t : State) : Prop := { s with awake := t.awake } = t

theorem sameButAwake_withAwake (s : State) (b : Bool) : SameButAwake { s with awake := b } s := rfl

theorem sameButAwake_of_timing {s t : State} (htiming : s.timing = t.timing) (hpt : s.pt = t.pt)
    (hadsample : s.adsample = t.adsample) (hadif : s.adif = t.adif) (hadbusy : s.adbusy = t.adbusy)
    (hwdc : s.wdc = t.wdc) (htrace : s.trace = t.trace) : SameButAwake s t := by
  obtain ⟨htcnt, hde, hledn, htoie, htov, hpsc⟩ := State.timing_eq_iff.1 htiming
  simp only [SameButAwake, *]

/-- No clock reads `AWAKE` (R136): the clocks' timing elements depend on timing elements alone, and the rest is their frame. -/
theorem clkSteps_sameButAwake (p : Params) (n : Nat) (s : State) (b : Bool) :
    SameButAwake (clkSteps p n { s with awake := b }) (clkSteps p n s) := by
  have hs := clkSteps_frame p n s
  have hb := clkSteps_frame p n { s with awake := b }
  exact sameButAwake_of_timing (clkSteps_timing_congr p n rfl) (hb.pt.trans hs.pt.symm)
    (hb.adsample.trans hs.adsample.symm) (hb.adif.trans hs.adif.symm) (hb.adbusy.trans hs.adbusy.symm)
    (hb.wdc.trans hs.wdc.symm) (hb.trace.trans hs.trace.symm)

/-- No watchdog clock reads `AWAKE`; the clock that wakes and the one that resets write it. -/
theorem wd1_sameButAwake (p : Params) {s t : State} (h : SameButAwake s t) : SameButAwake (wd1 p s) (wd1 p t) := by
  obtain ⟨b, rfl⟩ : ∃ b : Bool, t = { s with awake := b } := ⟨t.awake, h.symm⟩
  rcases wd1_cases p s with ⟨hrst, hwd⟩ | ⟨hint, hwd⟩ | ⟨hrst, hint, hwd⟩ <;> rw [hwd]
  · rw [wd1_at_wRst (s := { s with awake := b }) hrst]; rfl
  · rw [wd1_at_wInt (s := { s with awake := b }) hint]; rfl
  · rw [wd1_elsewhere (s := { s with awake := b }) hrst hint]; rfl

theorem wdSteps_sameButAwake (p : Params) (n : Nat) {s t : State} (h : SameButAwake s t) :
    SameButAwake (wdSteps p n s) (wdSteps p n t) := by
  induction n generalizing s t with
  | zero => exact h
  | succ n ih => exact ih (wd1_sameButAwake p h)

/-- What an operation other than `SVC` answers from a state, it answers, `AWAKE` apart, with `AWAKE` at any value. -/
theorem exec_withAwake {i : Instr} {s t : State} (b : Bool) (hsvc : i ≠ .svc) (hexec : exec i s = .next t) :
    ∃ u, exec i { s with awake := b } = .next u ∧ SameButAwake u t := by
  rcases exec_next_cases hexec with ⟨n, rfl, rfl⟩ | ⟨rfl, rfl⟩ | ⟨rfl, rfl⟩ | ⟨v, rfl, hbusy, rfl⟩ | ⟨n, rfl, rfl⟩ |
    ⟨rfl, -, -⟩ | ⟨rfl, rfl⟩
  · exact ⟨_, exec_clk n _, clkSteps_sameButAwake params n s b⟩
  · exact ⟨_, exec_edge _, rfl⟩
  · exact ⟨_, exec_rise _, sameButAwake_withAwake _ b⟩
  · exact ⟨_, exec_adcc_of_adbusy v hbusy, rfl⟩
  · exact ⟨_, exec_wdck n _, wdSteps_sameButAwake params n (sameButAwake_withAwake s b)⟩
  · exact absurd rfl hsvc
  · exact ⟨_, exec_rst _, rfl⟩

/-! ### The statements -/

/-- Settles O35: short of `W_RST`, and from `W_RST` on. -/
theorem watchdogCountResult : Obligations.WatchdogCountResult := by
  intro n s hwdc
  rw [exec_wdck]
  by_cases hlt : s.wdc + n < params.wRst
  · rw [if_pos hlt, wdSteps_below_wRst hlt]
  · rw [if_neg hlt, wdSteps_from_wRst hwdc (Nat.le_of_not_lt hlt)]
    rfl

/-- Settles O37: every operation keeps the supervisor awake from the `W_INT`-th watchdog clock on, and the count gets there. -/
theorem supervisorIsNotStarved : Obligations.SupervisorIsNotStarved := by
  intro is s t hwdc hkind hint hrst hrun
  have hcount : t.wdc = s.wdc + watchdogClocksOf is := runOps_wdc hkind (by omega) hrun
  exact runOps_watchdogAwake (watchdogAwake_of_wdc_eq_zero params hwdc) hrun (by omega)

/-- Settles O38, by induction on the repetitions. -/
theorem servicedWatchdogChangesNothing : Obligations.ServicedWatchdogChangesNothing := by
  intro m n s hwdc hadif hasleep hint hrst
  induction m with
  | zero => rfl
  | succ m ih =>
    rw [List.replicate_succ, List.flatten_cons]
    exact (runOps_wdck_svc hwdc hadif hasleep hint hrst _).trans ih

/-- Settles O50. -/
theorem sleepStopsOnlySupervisor : Obligations.SleepStopsOnlySupervisor :=
  fun _ b _ _ => exec_withAwake b

/-- Settles O28: an `SVC` that answers leaves the supervisor asleep. -/
theorem svcNeedsAwakeSupervisor : Obligations.SvcNeedsAwakeSupervisor := by
  intro s
  refine ⟨fun hasleep => exec_svc_refused.2 ⟨hasleep, rfl⟩, fun t hexec => ?_⟩
  obtain ⟨-, rfl⟩ := exec_svc_next.1 hexec
  exact exec_svc_refused.2 ⟨rfl, rfl⟩

/-- Settles O34, one case of the watchdog clock after another. -/
theorem oneWatchdogClockResult : Obligations.OneWatchdogClockResult := by
  intro s
  rw [exec_wdck, wdSteps_one]
  by_cases hrst : s.wdc + 1 = params.wRst
  · rw [if_pos hrst, wd1_at_wRst hrst]
    rfl
  · rw [if_neg hrst]
    by_cases hint : s.wdc + 1 = params.wInt
    · rw [if_pos hint, wd1_at_wInt hint]
    · rw [if_neg hint, wd1_elsewhere hrst hint]

/-- Settles O36: both operations answer `doReset s`. -/
theorem watchdogResetIsFullReset : Obligations.WatchdogResetIsFullReset := by
  intro s hrst
  have hwd : exec (.wdck 1) s = .next (doReset s) := by rw [exec_wdck, wdSteps_one, wd1_at_wRst hrst]
  exact ⟨doReset s, hwd, exec_rst s, doReset_de s, doReset_ledn s, doReset_pt s, (phase_eq_idle_iff _).2 ⟨rfl, rfl, rfl⟩⟩

end Sys2Proof.Machine
end

section
/-! PROOFS. The interrupts (spec/60_exceptions.md): when `Dispatch()` takes the overflow interrupt, and that no operation leaves
it one to take. -/

namespace Sys2Proof.Machine

/-! ### The overflow row of R156's table -/

/-- The interrupt to take is the one of R156 that is both pending and enabled. -/
theorem overflowReady_iff_pending_and_enabled (s : State) :
    overflowReady s = true ↔ IrqSource.overflow.pending s = true ∧ IrqSource.overflow.enabled s = true :=
  Bool.and_eq_true_iff

@[simp] theorem hOvf_awake (s : State) : (hOvf s).awake = true := by
  cases h : s.de <;> simp [hOvf, h]

theorem dispatch_of_ready {s : State} (h : overflowReady s = true) : dispatch s = hOvf s := if_pos h

/-! ### The statements -/

/-- Settles O43: the operation keeps the invariant, under which no enabled interrupt is left untaken. -/
theorem dispatchAfterAnyOperationIsIdle : Obligations.DispatchAfterAnyOperationIsIdle :=
  fun _ _ _ hinv hexec => dispatch_of_not_ready (exec_inv hinv hexec).no_untaken

/-- Settles O44: taken, the interrupt runs `H_OVF`, which clears the flag and wakes the supervisor. -/
theorem dispatchTakesEnabledOverflow : Obligations.DispatchTakesEnabledOverflow := by
  intro s
  constructor
  · intro hpending henabled
    rw [dispatch_of_ready ((overflowReady_iff_pending_and_enabled s).2 ⟨hpending, henabled⟩)]
    exact ⟨rfl, hOvf_tov s, hOvf_awake s⟩
  · intro hno
    exact dispatch_of_not_ready ((overflowReady_eq_false_iff s).2 hno)

end Sys2Proof.Machine
end

section
/-! PROOFS. Reset and hazards (spec/70_reset_and_hazards.md): the tie of an edge and an overflow, and the default reload value
from reset up to the first service pass that takes a sample. -/

namespace Sys2Proof.Machine

open Sys2Proof.Config

/-! ### The tie of an edge and an overflow (R197) -/

/-- What clocks can have changed an edge writes anew, so it does not matter to the edge how many there were. -/
theorem hEdge_clkSteps (p : Params) (k : Nat) (s : State) : hEdge (clkSteps p k s) = hEdge s := by
  obtain ⟨hpt, hsample, hadif, hadbusy, hwdc, htrace, -, -, -, -⟩ := clkSteps_frame p k s
  simp only [hEdge, hpt, hsample, hadif, hadbusy, hwdc, htrace]

/-- An edge and `k` clocks. -/
theorem runOps_edge_clk (k : Nat) (s : State) : runOps [.edge, .clk k] s = .next (clkSteps params k (hEdge s)) :=
  (runOps_cons (exec_edge s)).trans (runOps_cons (exec_clk k _))

/-- An edge that follows another, with clocks alone between them, answers what the first one did. -/
theorem exec_edge_clkSteps_hEdge (k : Nat) (s : State) : exec .edge (clkSteps params k (hEdge s)) = .next (hEdge s) := by
  rw [exec_edge, hEdge_clkSteps, hEdge_hEdge]

/-! ### The default reload value without a service pass (R119, R190) -/

theorem wd1_pt_default (p : Params) {s : State} (h : s.pt = 250#8) : (wd1 p s).pt = 250#8 := by
  rcases wd1_cases p s with ⟨-, hwd⟩ | ⟨-, hwd⟩ | ⟨-, -, hwd⟩ <;> rw [hwd]
  case inl => exact doReset_pt s
  all_goals exact h

/-- Every operation but `SVC` keeps the default, a waiting sample or not: a reset restores it, the others do not reach it. -/
theorem exec_pt_default {i : Instr} {s t : State} (hsvc : i ≠ .svc) (h : s.pt = 250#8) (hexec : exec i s = .next t) :
    t.pt = 250#8 := by
  rcases exec_next_cases hexec with ⟨n, rfl, rfl⟩ | ⟨rfl, rfl⟩ | ⟨rfl, rfl⟩ | ⟨v, rfl, -, rfl⟩ | ⟨n, rfl, rfl⟩ |
    ⟨rfl, -, rfl⟩ | ⟨rfl, rfl⟩
  · exact (clkSteps_frame params n s).pt.trans h
  · exact h
  · exact h
  · exact h
  · exact wdSteps_preserve params (P := fun u => u.pt = 250#8) (fun _ => wd1_pt_default params) n h
  · exact absurd rfl hsvc
  · exact doReset_pt s

theorem runOps_pt_default {is : List Instr} {s t : State} (hsvc : ∀ i ∈ is, i ≠ .svc) (h : s.pt = 250#8)
    (hrun : runOps is s = .next t) : t.pt = 250#8 :=
  runOps_preserve (P := fun u => u.pt = 250#8) (Q := (· ≠ .svc)) (fun _ _ _ => exec_pt_default) hsvc h hrun

theorem reset_atDefault : State.reset.AtDefault := ⟨rfl, rfl⟩

/-- From reset `PT` is the default "until the first `ADCC` and the `SVC` after it" (R119): up to the first conversion no sample
waits for a service pass, and after it no pass comes. -/
theorem runOps_reset_pt {before after : List Instr} {s : State} (hadcc : ∀ i ∈ before, ∀ v : Sample, i ≠ .adcc v)
    (hsvc : ∀ i ∈ after, i ≠ .svc) (hrun : runOps (before ++ after) State.reset = .next s) : s.pt = 250#8 := by
  obtain ⟨u, hbefore, hafter⟩ := runOps_append_next.1 hrun
  exact runOps_pt_default hsvc (runOps_atDefault hadcc reset_atDefault hbefore).pt hafter

/-! ### The statements -/

/-- Settles O21: the pulse ends at the clock that ties with the edge, and the second edge undoes what the clocks before it
changed. -/
theorem edgeOverflowTie : Obligations.EdgeOverflowTie := by
  intro s
  have hpos : 0 < pulseLength s.pt * params.prescale := Nat.mul_pos (pulseLength_pos s.pt) (prescale_pos params)
  refine ⟨_, _, runOps_edge_clk _ s, ?overflowFirst, runOps_edge_clk _ s, ?edgeFirst, ?sameState⟩
  case overflowFirst =>
    exact Bool.eq_false_of_not_eq_true fun hde => absurd ((clkSteps_hEdge_de s _).1 hde) (Nat.lt_irrefl _)
  case edgeFirst => exact (clkSteps_hEdge_de s _).2 (Nat.sub_one_lt_of_lt hpos)
  case sameState => rw [exec_edge_clkSteps_hEdge, exec_edge_clkSteps_hEdge]

/-- Settles O33: `PT` is still the default, whose pulse is 6 ticks. -/
theorem defaultPulseBeforeCalibration : Obligations.DefaultPulseBeforeCalibration := by
  intro before after s k hadcc hsvc hrun
  have hpt : s.pt = 250#8 := runOps_reset_pt hadcc hsvc hrun
  have hlength : pulseLength s.pt = 6 := by rw [hpt]; rfl
  refine ⟨hEdge s, _, exec_edge s, hpt, exec_clk k _, ?_⟩
  rw [clkSteps_hEdge_de, hlength]

/-- Settles O39: `RST` is `Reset()`, whose values are those of `State.reset`. -/
theorem rstRestoresEveryElement : Obligations.RstRestoresEveryElement := exec_rst

end Sys2Proof.Machine
end
